-- ==== Sys2Proof/Word.lean ====
section
/-!
DEFINITION. The word types of SAP3-CORE, by the widths of 00_scope.md rule R7 and 10_state.md rule R13.
All values are unsigned (00_scope.md rule R11).
-/

namespace Sys2Proof

/-- `DATA_WIDTH` = 8 bits: A, every R[i], every memory cell (R7). -/
abbrev Byte := BitVec 8

/-- `ADDR_WIDTH` = 9 bits: a data memory address, 0 to 511, and the stack pointer (R7, R32). -/
abbrev Address := BitVec 9

/-- `REG_INDEX_WIDTH` = 4 bits: a register index, 0 to 15 (R7, R14). -/
abbrev RegIndex := BitVec 4

/-- `PC_WIDTH` = 16 bits: an index into the instruction store, and a template index (R7, R18, R64). -/
abbrev Index := BitVec 16

/-- `RECORD_WIDTH` = 32 bits: one decoded record of the instruction store (R7, R64). -/
abbrev Record := BitVec 32

/-- Program text and print templates, as characters (30_encoding.md rules R48 and R59). -/
abbrev Text := List Char

end Sys2Proof
end

