-- ==== Sys2Proof/Syntax.lean ====
section
/-!
DEFINITION. The instructions of SAP3-CORE: one constructor per row of spec/opcode_table.json
(30_encoding.md rules R60 and R65), and the names of the fault causes (10_state.md rule R25).
-/

namespace Sys2Proof

/-- The fault causes of 10_state.md rule R25, codes 1 to 9 in order (code 0 is NONE, codes 10 to 15 are never written). -/
inductive FaultCause where
  | unknownOpcode
  | operandCount
  | operandSyntax
  | registerRange
  | addressRange
  | unresolvedLabel
  | stackOverflow
  | stackUnderflow
  | printFault
deriving DecidableEq, Repr

/-- A decoded instruction: the 33 forms of rule R65 and the loader's FAULT record. An address is the
9-bit field v[8:0], an immediate v[7:0], a jump target or template index v[15:0], a cause v[3:0]. -/
inductive Instr where
  /-- `NOP` (R76). -/
  | nop
  /-- `LDA addr` (R77). -/
  | lda (addr : Address)
  /-- `STA addr` (R78). -/
  | sta (addr : Address)
  /-- `LDR Rn, addr` (R79). -/
  | ldr (n : RegIndex) (addr : Address)
  /-- `STR Rn, addr` (R80). -/
  | str (n : RegIndex) (addr : Address)
  /-- `LDI imm` (R81). -/
  | ldi (imm : Byte)
  /-- `LDRI Rn, imm` (R82). -/
  | ldri (n : RegIndex) (imm : Byte)
  /-- `MOV Rs, Rd`, form MOV_RR (R83). -/
  | movRR (src dst : RegIndex)
  /-- `MOV Rs, A`, form MOV_RA (R84). -/
  | movRA (src : RegIndex)
  /-- `MOV A, Rd`, form MOV_AR (R85). -/
  | movAR (dst : RegIndex)
  /-- `ADD Rn`, form ADD_R (R87). -/
  | addR (n : RegIndex)
  /-- `ADD addr`, form ADD_M (R88). -/
  | addM (addr : Address)
  /-- `SUB addr` (R89). -/
  | sub (addr : Address)
  /-- `AND addr` (R90). -/
  | and (addr : Address)
  /-- `OR addr` (R91). -/
  | or (addr : Address)
  /-- `XOR addr` (R92). -/
  | xor (addr : Address)
  /-- `NOT` (R93). -/
  | not
  /-- `INC` (R94). -/
  | inc
  /-- `DEC` (R95). -/
  | dec
  /-- `ROL` (R96). -/
  | rol
  /-- `ROR` (R97). -/
  | ror
  /-- `JMP label` (R100). -/
  | jmp (target : Index)
  /-- `JZ label` (R101). -/
  | jz (target : Index)
  /-- `JNZ label` (R102). -/
  | jnz (target : Index)
  /-- `JC label` (R103). -/
  | jc (target : Index)
  /-- `JNC label` (R104). -/
  | jnc (target : Index)
  /-- `PUSH` (R106). -/
  | push
  /-- `POP` (R107). -/
  | pop
  /-- `IN` (R108). -/
  | inp
  /-- `OUT`, form OUT_A (R109). -/
  | outA
  /-- `OUT Rn`, form OUT_R (R110). -/
  | outR (n : RegIndex)
  /-- `HLT` (R111). -/
  | hlt
  /-- `PRINT text`: the text is entry `template` of the template table (R112). -/
  | print (template : Index)
  /-- The FAULT record (R113): no text spells it. -/
  | fault (cause : BitVec 4)
deriving DecidableEq, Repr

end Sys2Proof
end

