-- ==== Sys2Proof/WellFormed.lean ====
section
/-!
DEFINITION. What makes an instruction well-formed (30_encoding.md rule R67). The widths of an
operand are in `Instr`'s types; what the types leave open is a FAULT record's cause, and, for an
instruction that stands in a program image, its jump target and its template index.
-/

namespace Sys2Proof

/-- A FAULT record's cause is 1 to 9 (R64, R67, R113); every other instruction is well-formed as it stands. -/
def Instr.wf : Instr → Bool
  | .fault cause => decide (1 ≤ cause.toNat) && decide (cause.toNat ≤ 9)
  | _ => true

/-- In an image of `n` records with `t` templates a jump's target is at most `n` and a PRINT's index is below `t` (R67). -/
def Instr.fits (n t : Nat) : Instr → Bool
  | .jmp target | .jz target | .jnz target | .jc target | .jnc target => decide (target.toNat ≤ n)
  | .print template => decide (template.toNat < t)
  | _ => true

end Sys2Proof
end

