-- ==== Sys2Proof/Decode.lean ====
section
/-!
DEFINITION. The 32-bit record: its field layout (30_encoding.md rule R64), the tags (rule R65), the
decoder, which rejects an illegal word by name (rule R69), and the encoder. A record is a whole
word: the instruction store has no bytes (20_memory.md rule R37), so the decoder takes the word.
-/

namespace Sys2Proof

/-- The fields of a record (R64). -/
structure Fields where
  tag : BitVec 6
  ra : RegIndex
  rb : RegIndex
  zero : BitVec 2
  v : BitVec 16
deriving DecidableEq, Repr

/-- tag [31:26], ra [25:22], rb [21:18], zero [17:16], v [15:0] (R64). -/
def Fields.ofWord (w : Record) : Fields where
  tag := w.extractLsb' 26 6
  ra := w.extractLsb' 22 4
  rb := w.extractLsb' 18 4
  zero := w.extractLsb' 16 2
  v := w.extractLsb' 0 16

/-- The record with the given fields (R64). -/
def Fields.toWord (f : Fields) : Record := f.tag ++ f.ra ++ f.rb ++ f.zero ++ f.v

/-- Why a word is no instruction (R69). Both raise UNKNOWN_OPCODE when the word executes. -/
inductive DecodeError where
  /-- A tag that rule R65 assigns to no form: 0x21 to 0x3E. -/
  | reservedTag (tag : BitVec 6)
  /-- A known tag with a nonzero field, or part of a field, that its form does not use. -/
  | unusedFieldNonzero (tag : BitVec 6)
deriving DecidableEq, Repr

/-- Answer `i` where every field the form does not use is 0, and reject the word otherwise (R64, R69). -/
def Fields.require (f : Fields) (unusedZero : Bool) (i : Instr) : Except DecodeError Instr :=
  if unusedZero then .ok i else .error (.unusedFieldNonzero f.tag)

/-- A form that uses no field (format N of opcode_table.json). -/
def Fields.plain (f : Fields) (i : Instr) : Except DecodeError Instr :=
  f.require (f.ra == 0 && f.rb == 0 && f.zero == 0 && f.v == 0) i

/-- A form with an address in v[8:0] (format M). -/
def Fields.withAddress (f : Fields) (mk : Address → Instr) : Except DecodeError Instr :=
  f.require (f.ra == 0 && f.rb == 0 && f.zero == 0 && f.v.extractLsb' 9 7 == 0) (mk (f.v.extractLsb' 0 9))

/-- A form with a register in ra and an address in v[8:0] (format RM). -/
def Fields.withRegAddress (f : Fields) (mk : RegIndex → Address → Instr) : Except DecodeError Instr :=
  f.require (f.rb == 0 && f.zero == 0 && f.v.extractLsb' 9 7 == 0) (mk f.ra (f.v.extractLsb' 0 9))

/-- A form with an immediate in v[7:0] (format I). -/
def Fields.withImmediate (f : Fields) (mk : Byte → Instr) : Except DecodeError Instr :=
  f.require (f.ra == 0 && f.rb == 0 && f.zero == 0 && f.v.extractLsb' 8 8 == 0) (mk (f.v.extractLsb' 0 8))

/-- A form with a register in ra and an immediate in v[7:0] (format RI). -/
def Fields.withRegImmediate (f : Fields) (mk : RegIndex → Byte → Instr) : Except DecodeError Instr :=
  f.require (f.rb == 0 && f.zero == 0 && f.v.extractLsb' 8 8 == 0) (mk f.ra (f.v.extractLsb' 0 8))

/-- A form with registers in ra and rb (format RR). -/
def Fields.withRegReg (f : Fields) (mk : RegIndex → RegIndex → Instr) : Except DecodeError Instr :=
  f.require (f.zero == 0 && f.v == 0) (mk f.ra f.rb)

/-- A form with a register in ra (format R). -/
def Fields.withRa (f : Fields) (mk : RegIndex → Instr) : Except DecodeError Instr :=
  f.require (f.rb == 0 && f.zero == 0 && f.v == 0) (mk f.ra)

/-- A form with a register in rb (format RB). -/
def Fields.withRb (f : Fields) (mk : RegIndex → Instr) : Except DecodeError Instr :=
  f.require (f.ra == 0 && f.zero == 0 && f.v == 0) (mk f.rb)

/-- A form with all of v: a jump target or a template index (formats J and P). -/
def Fields.withValue (f : Fields) (mk : Index → Instr) : Except DecodeError Instr :=
  f.require (f.ra == 0 && f.rb == 0 && f.zero == 0) (mk f.v)

/-- The FAULT record: a cause in v[3:0] (format F). -/
def Fields.withCause (f : Fields) (mk : BitVec 4 → Instr) : Except DecodeError Instr :=
  f.require (f.ra == 0 && f.rb == 0 && f.zero == 0 && f.v.extractLsb' 4 12 == 0) (mk (f.v.extractLsb' 0 4))

/-- The instruction the fields hold, by the tags of rule R65. -/
def decodeFields (f : Fields) : Except DecodeError Instr :=
  match f.tag.toNat with
  | 0x00 => f.plain .nop
  | 0x01 => f.withAddress .lda
  | 0x02 => f.withAddress .sta
  | 0x03 => f.withRegAddress .ldr
  | 0x04 => f.withRegAddress .str
  | 0x05 => f.withImmediate .ldi
  | 0x06 => f.withRegImmediate .ldri
  | 0x07 => f.withRegReg .movRR
  | 0x08 => f.withRa .movRA
  | 0x09 => f.withRb .movAR
  | 0x0A => f.withRa .addR
  | 0x0B => f.withAddress .addM
  | 0x0C => f.withAddress .sub
  | 0x0D => f.withAddress .and
  | 0x0E => f.withAddress .or
  | 0x0F => f.withAddress .xor
  | 0x10 => f.plain .not
  | 0x11 => f.plain .inc
  | 0x12 => f.plain .dec
  | 0x13 => f.plain .rol
  | 0x14 => f.plain .ror
  | 0x15 => f.withValue .jmp
  | 0x16 => f.withValue .jz
  | 0x17 => f.withValue .jnz
  | 0x18 => f.withValue .jc
  | 0x19 => f.withValue .jnc
  | 0x1A => f.plain .push
  | 0x1B => f.plain .pop
  | 0x1C => f.plain .inp
  | 0x1D => f.plain .outA
  | 0x1E => f.withRa .outR
  | 0x1F => f.plain .hlt
  | 0x20 => f.withValue .print
  | 0x3F => f.withCause .fault
  | _ => .error (.reservedTag f.tag)

/-- The instruction a 32-bit record holds, or why it holds none (R64, R65, R69). -/
def decode (w : Record) : Except DecodeError Instr := decodeFields (Fields.ofWord w)

/-- The fields of an instruction's record, by rules R64 and R65: every field the form does not use is 0. -/
def encodeFields : Instr → Fields
  | .nop => ⟨0x00, 0, 0, 0, 0⟩
  | .lda addr => ⟨0x01, 0, 0, 0, addr.setWidth 16⟩
  | .sta addr => ⟨0x02, 0, 0, 0, addr.setWidth 16⟩
  | .ldr n addr => ⟨0x03, n, 0, 0, addr.setWidth 16⟩
  | .str n addr => ⟨0x04, n, 0, 0, addr.setWidth 16⟩
  | .ldi imm => ⟨0x05, 0, 0, 0, imm.setWidth 16⟩
  | .ldri n imm => ⟨0x06, n, 0, 0, imm.setWidth 16⟩
  | .movRR src dst => ⟨0x07, src, dst, 0, 0⟩
  | .movRA src => ⟨0x08, src, 0, 0, 0⟩
  | .movAR dst => ⟨0x09, 0, dst, 0, 0⟩
  | .addR n => ⟨0x0A, n, 0, 0, 0⟩
  | .addM addr => ⟨0x0B, 0, 0, 0, addr.setWidth 16⟩
  | .sub addr => ⟨0x0C, 0, 0, 0, addr.setWidth 16⟩
  | .and addr => ⟨0x0D, 0, 0, 0, addr.setWidth 16⟩
  | .or addr => ⟨0x0E, 0, 0, 0, addr.setWidth 16⟩
  | .xor addr => ⟨0x0F, 0, 0, 0, addr.setWidth 16⟩
  | .not => ⟨0x10, 0, 0, 0, 0⟩
  | .inc => ⟨0x11, 0, 0, 0, 0⟩
  | .dec => ⟨0x12, 0, 0, 0, 0⟩
  | .rol => ⟨0x13, 0, 0, 0, 0⟩
  | .ror => ⟨0x14, 0, 0, 0, 0⟩
  | .jmp target => ⟨0x15, 0, 0, 0, target⟩
  | .jz target => ⟨0x16, 0, 0, 0, target⟩
  | .jnz target => ⟨0x17, 0, 0, 0, target⟩
  | .jc target => ⟨0x18, 0, 0, 0, target⟩
  | .jnc target => ⟨0x19, 0, 0, 0, target⟩
  | .push => ⟨0x1A, 0, 0, 0, 0⟩
  | .pop => ⟨0x1B, 0, 0, 0, 0⟩
  | .inp => ⟨0x1C, 0, 0, 0, 0⟩
  | .outA => ⟨0x1D, 0, 0, 0, 0⟩
  | .outR n => ⟨0x1E, n, 0, 0, 0⟩
  | .hlt => ⟨0x1F, 0, 0, 0, 0⟩
  | .print template => ⟨0x20, 0, 0, 0, template⟩
  | .fault cause => ⟨0x3F, 0, 0, 0, cause.setWidth 16⟩

/-- The record the loader writes for an instruction (R64, R65, R66). -/
def encode (i : Instr) : Record := (encodeFields i).toWord

/-- One row of spec/opcode_table.json: a word is the row's where `word &&& mask = pattern` (the table's match). -/
structure OpcodeRow where
  form : String
  pattern : Record
  mask : Record
deriving DecidableEq, Repr

/-- The rows of spec/opcode_table.json, as the table gives their match and mask. The decoder does not
read it: it is written from R64 and R65, and the two are compared in the laws and the statements. -/
def opcodeTable : List OpcodeRow := [
  ⟨"NOP", 0x00000000, 0xFFFFFFFF⟩, ⟨"LDA", 0x04000000, 0xFFFFFE00⟩,
  ⟨"STA", 0x08000000, 0xFFFFFE00⟩, ⟨"LDR", 0x0C000000, 0xFC3FFE00⟩,
  ⟨"STR", 0x10000000, 0xFC3FFE00⟩, ⟨"LDI", 0x14000000, 0xFFFFFF00⟩,
  ⟨"LDRI", 0x18000000, 0xFC3FFF00⟩, ⟨"MOV_RR", 0x1C000000, 0xFC03FFFF⟩,
  ⟨"MOV_RA", 0x20000000, 0xFC3FFFFF⟩, ⟨"MOV_AR", 0x24000000, 0xFFC3FFFF⟩,
  ⟨"ADD_R", 0x28000000, 0xFC3FFFFF⟩, ⟨"ADD_M", 0x2C000000, 0xFFFFFE00⟩,
  ⟨"SUB", 0x30000000, 0xFFFFFE00⟩, ⟨"AND", 0x34000000, 0xFFFFFE00⟩,
  ⟨"OR", 0x38000000, 0xFFFFFE00⟩, ⟨"XOR", 0x3C000000, 0xFFFFFE00⟩,
  ⟨"NOT", 0x40000000, 0xFFFFFFFF⟩, ⟨"INC", 0x44000000, 0xFFFFFFFF⟩,
  ⟨"DEC", 0x48000000, 0xFFFFFFFF⟩, ⟨"ROL", 0x4C000000, 0xFFFFFFFF⟩,
  ⟨"ROR", 0x50000000, 0xFFFFFFFF⟩, ⟨"JMP", 0x54000000, 0xFFFF0000⟩,
  ⟨"JZ", 0x58000000, 0xFFFF0000⟩, ⟨"JNZ", 0x5C000000, 0xFFFF0000⟩,
  ⟨"JC", 0x60000000, 0xFFFF0000⟩, ⟨"JNC", 0x64000000, 0xFFFF0000⟩,
  ⟨"PUSH", 0x68000000, 0xFFFFFFFF⟩, ⟨"POP", 0x6C000000, 0xFFFFFFFF⟩,
  ⟨"IN", 0x70000000, 0xFFFFFFFF⟩, ⟨"OUT_A", 0x74000000, 0xFFFFFFFF⟩,
  ⟨"OUT_R", 0x78000000, 0xFC3FFFFF⟩, ⟨"HLT", 0x7C000000, 0xFFFFFFFF⟩,
  ⟨"PRINT", 0x80000000, 0xFFFF0000⟩, ⟨"FAULT", 0xFC000000, 0xFFFFFFF0⟩]

/-- Does the word belong to the row? -/
def OpcodeRow.matchesWord (r : OpcodeRow) (w : Record) : Bool := w &&& r.mask == r.pattern

/-- The index in `opcodeTable` of an instruction's row. -/
def Instr.row : Instr → Nat
  | .nop => 0 | .lda _ => 1 | .sta _ => 2 | .ldr _ _ => 3 | .str _ _ => 4 | .ldi _ => 5
  | .ldri _ _ => 6 | .movRR _ _ => 7 | .movRA _ => 8 | .movAR _ => 9 | .addR _ => 10
  | .addM _ => 11 | .sub _ => 12 | .and _ => 13 | .or _ => 14 | .xor _ => 15 | .not => 16
  | .inc => 17 | .dec => 18 | .rol => 19 | .ror => 20 | .jmp _ => 21 | .jz _ => 22
  | .jnz _ => 23 | .jc _ => 24 | .jnc _ => 25 | .push => 26 | .pop => 27 | .inp => 28
  | .outA => 29 | .outR _ => 30 | .hlt => 31 | .print _ => 32 | .fault _ => 33

/-- The instruction the decoder reads from the low `nbits` bits of `w`; every bit above them is 0.
The instruction store holds whole words and no byte order of it can be observed (R37), so the word
is given to the decoder as a number (log entry 14). -/
def decodeTableWord (nbits w : Nat) : Option Instr :=
  match decode (BitVec.ofNat 32 (w % 2 ^ nbits)) with
  | .ok i => some i
  | .error _ => none

end Sys2Proof
end

