-- ==== Sys2Proof/Machine/Memory.lean ====
section
/-!
DEFINITION. Data memory: 512 cells of 8 bits (20_memory.md rule R32), as a list of address and byte
pairs in one canonical form: addresses strictly rising and below 512, and no entry equal to what an
unlisted address reads as. Rule R32 and rule R43 make that 0: "zero-initialized".
-/

namespace Sys2Proof.Machine

/-- Data memory as plain data. -/
abbrev Memory := List Host.Cell

/-- `MEM_SIZE` (00_scope.md rule R7, R32). -/
def memSize : Nat := 512

/-- What a cell that the list does not name holds: the reset value of every cell (R29, R32, R40). -/
def unlistedByte : Byte := 0

/-- The byte at an address. -/
def Memory.read : Memory → Nat → Byte
  | [], _ => unlistedByte
  | (b, w) :: m, a => if b = a then w else Memory.read m a

/-- `(a, v)` in front of `m`, or `m` where `v` is what an unlisted cell holds. -/
def Memory.consCell (a : Nat) (v : Byte) (m : Memory) : Memory :=
  if v = unlistedByte then m else (a, v) :: m

/-- Set the byte at an address, keeping the canonical form. -/
def Memory.write : Memory → Nat → Byte → Memory
  | [], a, v => Memory.consCell a v []
  | (b, w) :: m, a, v =>
    if a < b then Memory.consCell a v ((b, w) :: m)
    else if a = b then Memory.consCell a v m
    else (b, w) :: Memory.write m a v

/-- The canonical form above a bound: addresses from `lo` up, strictly rising, below 512, no entry
holding what an unlisted cell holds. -/
def Memory.risingFrom : Nat → Memory → Bool
  | _, [] => true
  | lo, (b, w) :: m => decide (lo ≤ b) && decide (b < memSize) && (w != unlistedByte) && Memory.risingFrom (b + 1) m

/-- The canonical form. -/
def Memory.wf (m : Memory) : Bool := Memory.risingFrom 0 m

end Sys2Proof.Machine
end

