-- ==== Sys2Proof/Machine/Arch.lean ====
section
/-!
DEFINITION. The architectural state of 10_state.md rule R13, the events of the output channel
(44_stack_io_system.md rule R105) and the program image the host supplies (30_encoding.md rules R66
and R67).
-/

namespace Sys2Proof.Machine

/-- "The core's architectural state is exactly the document's Machine State" (R13), with the FAULT
register. It is what a Print event carries (R105). -/
structure Arch where
  /-- The accumulator A (R17). -/
  a : Byte
  /-- R0 to R15 (R14). -/
  regs : Vector Byte 16
  /-- The Carry flag (R20). -/
  c : Bool
  /-- The Zero flag (R20). -/
  z : Bool
  /-- The program counter, an index into the instruction store (R18). -/
  pc : Index
  /-- The stack pointer, an index into data memory (R23). -/
  sp : Address
  /-- HALT (R24). -/
  halt : Bool
  /-- FAULT, the 4-bit fault cause register; 0 is NONE (R25). -/
  fault : BitVec 4
  /-- Mem[0..511] (R32). -/
  mem : Memory
deriving DecidableEq, Repr

/-- An event the core sends to the host (R105). -/
inductive Event where
  /-- `Out(v)`, from OUT (R109, R110). -/
  | out (v : Byte)
  /-- `Print(t, snap)`, from PRINT: a template index and the architectural state at the instruction,
  before any write it makes (R105, R112). -/
  | print (template : Index) (snap : Arch)
deriving DecidableEq, Repr

/-- What the loader makes of a source and the host supplies before a run (R66, R131): the instruction
store, one record per index, N being its length (10_state.md rule R27), and the template table. -/
structure Image where
  records : List Record
  templates : List Text
deriving DecidableEq, Repr

/-- No program: N = 0. -/
def Image.empty : Image := ⟨[], []⟩

end Sys2Proof.Machine
end

