-- ==== Sys2Proof/Config.lean ====
section
/-!
DEFINITION. The parameters of 00_scope.md rule R7 that the spec leaves to the implementation or open,
and the free values. The four parameters with defaults are plain data that State carries and no step
changes (log entry 1), so every statement about a state speaks of each choice. What the spec leaves
wholly open is an opaque constant: nothing in Lean can evaluate it.
-/

namespace Sys2Proof

/-- `ADD_WRAP`: what ADD leaves in A when the sum exceeds 255 (R7, R86). -/
inductive AddWrap where
  | mask
  | sub255
deriving DecidableEq, Repr

/-- `SUB_UNDERFLOW`: what SUB leaves in A when the cell exceeds A (R7, R86). -/
inductive SubUnderflow where
  | wrap
  | draw
deriving DecidableEq, Repr

/-- `RESET_REGS`: what reset leaves in A, R[0..15], C and Z (R7, R29). -/
inductive ResetRegs where
  | zero
  | draw
deriving DecidableEq, Repr

/-- `print_check`: the default never faults; otherwise the host's predicate decides (R7, R112, log entry 4). -/
inductive PrintCheck where
  | never
  | host
deriving DecidableEq, Repr

/-- The parameters with defaults of R7. -/
structure Params where
  addWrap : AddWrap
  subUnderflow : SubUnderflow
  resetRegs : ResetRegs
  printCheck : PrintCheck
deriving DecidableEq, Repr

/-- The spec's defaults (R7): MASK, WRAP, ZERO, never faults. -/
def Params.default : Params := ⟨.mask, .wrap, .zero, .never⟩

/-- `IN_VALUE`, OPEN in the spec (R7, R108): the value of the `in_value` input that `State.reset`
stands with. DESIGN CHOICE, safe: a free value (log entry 2). -/
opaque Config.inValue : Byte

/-- The k-th unconstrained 8-bit draw (R29, R86): a free value (log entry 3). -/
opaque Config.drawByte : Nat → Byte

/-- The k-th unconstrained flag draw (R29): a free value (log entry 3). -/
opaque Config.drawFlag : Nat → Bool

/-- `print_check(template, state)` where the host supplies one (R112): true where it reports a fault.
The template is `none` where the table has no such entry, which no well-formed image allows (R67).
A free value (log entry 4). -/
opaque Config.printCheck : Option Text → Machine.Arch → Bool

/-- `print_render(template, snapshot)`, an OPEN host-side function (R7, R112), with `none` as for
`Config.printCheck`: a free value (log entry 5). -/
opaque Config.printRender : Option Text → Machine.Arch → Text

end Sys2Proof
end

