-- ==== Sys2Proof/Machine/Reset.lean ====
section
/-!
DEFINITION. What reset leaves in the architectural state (10_state.md rule R29, 70_reset_and_hazards.md
rule R130).
-/

namespace Sys2Proof.Machine

/-- The architectural state after reset (R29, R130). Under `RESET_REGS = DRAW` A, R0 to R15, C and Z
are unconstrained draws, from the draw numbered `k` on (log entry 3). -/
def resetArch (p : Params) (k : Nat) : Arch where
  a := match p.resetRegs with | .zero => 0 | .draw => Config.drawByte k
  regs := match p.resetRegs with
    | .zero => Vector.replicate 16 0
    | .draw => Vector.ofFn fun i => Config.drawByte (k + 1 + i.val)
  c := match p.resetRegs with | .zero => false | .draw => Config.drawFlag (k + 17)
  z := match p.resetRegs with | .zero => false | .draw => Config.drawFlag (k + 18)
  pc := 0
  sp := 511
  halt := false
  fault := 0
  mem := []

/-- How many draws a reset takes: A, sixteen registers and two flags under DRAW, none under ZERO. -/
def resetDraws (p : Params) : Nat :=
  match p.resetRegs with
  | .zero => 0
  | .draw => 19

end Sys2Proof.Machine
end

