-- ==== Sys2Proof/Machine/State.lean ====
section
/-!
DEFINITION. The state of the machine: the architectural state of 10_state.md rule R13, what the host
supplies and holds constant during a run (70_reset_and_hazards.md rule R131), the output event stream
(44_stack_io_system.md rule R105), and the model's counter of unconstrained draws.
-/

namespace Sys2Proof.Machine

/-- Everything the spec gives the machine; INVENTORY.md lists each field with its rule. -/
structure State extends Arch where
  /-- The instruction store, N and the template table (R27, R131). -/
  image : Image
  /-- The `in_value` input, `IN_VALUE` (R9, R108, R131). -/
  inValue : Byte
  /-- The parameters of 00_scope.md rule R7 (log entry 1). -/
  params : Params
  /-- The output event stream, oldest event first (R29, R105). -/
  out : List Event
  /-- The model's own field: how many unconstrained values have been drawn (log entry 3). -/
  draws : Nat
deriving DecidableEq, Repr

/-- The model's own faults: there are none. Every fault of the spec is a next state, with HALT and
FAULT written (60_exceptions.md rule R115), and no address a record can hold is outside data memory
(20_memory.md rule R32), so no step of this machine ends in a model fault. -/
inductive Fault where
deriving DecidableEq, Repr

/-- Why the model gives an instruction no meaning. -/
inductive Refusal where
  /-- Raised by an arm of `exec` whose instruction has no meaning yet; no arm does. Safe: nothing is claimed of it. -/
  | notModelled (mnemonic : String)
  /-- Raised by `execFault` for a FAULT record whose cause is outside 1 to 9. Rule R67 makes an image
  that holds one ill-formed ("A model refuses an ill-formed image and gives it no run"), and rule R25
  says those codes are "never written". Safe: the spec gives such a record no run (log entry 9). -/
  | illFormedFaultRecord (cause : BitVec 4)
deriving DecidableEq, Repr

/-- The machine right after reset (R29, R130), with the spec's default parameters (log entry 1), an
open `IN_VALUE` (log entry 2) and no program yet: the host supplies one from outside (R131, log entry 6). -/
def State.reset : State where
  toArch := resetArch Params.default 0
  image := Image.empty
  inValue := Config.inValue
  params := Params.default
  out := []
  draws := 0

end Sys2Proof.Machine
end

