-- ==== Sys2Proof/Machine/Ops.lean ====
section
/-!
DEFINITION. The named operations over the state: the primitives of 00_scope.md rule R12, the engine's
PC rule (40_execution_engine.md rule R73), fault entry (60_exceptions.md rule R115), the stop condition
and the fetch (rules R71 and R72), and reset (70_reset_and_hazards.md rules R130 and R131).

There is no return from an exception to model: "The core has no trap return" (rule R120).
-/

namespace Sys2Proof.Machine

/-- What executing an instruction answers. -/
abbrev Result := Host.Outcome State Fault Refusal

/-- The code of a cause (10_state.md rule R25). -/
def causeCode : FaultCause → BitVec 4
  | .unknownOpcode => 1
  | .operandCount => 2
  | .operandSyntax => 3
  | .registerRange => 4
  | .addressRange => 5
  | .unresolvedLabel => 6
  | .stackOverflow => 7
  | .stackUnderflow => 8
  | .printFault => 9

/-- The cause with a code, for the codes 1 to 9 (R25). -/
def causeOfCode (k : BitVec 4) : Option FaultCause :=
  match k.toNat with
  | 1 => some .unknownOpcode
  | 2 => some .operandCount
  | 3 => some .operandSyntax
  | 4 => some .registerRange
  | 5 => some .addressRange
  | 6 => some .unresolvedLabel
  | 7 => some .stackOverflow
  | 8 => some .stackUnderflow
  | 9 => some .printFault
  | _ => none

/-- `R[n]` (R12, R14). -/
def State.reg (s : State) (n : RegIndex) : Byte := s.regs[n.toNat]'n.isLt

/-- `R[n] <- v` (R12, R14). -/
def State.setReg (s : State) (n : RegIndex) (v : Byte) : State :=
  { s with regs := s.regs.set n.toNat v n.isLt }

/-- `MemRead(addr, 1)` (R12, 20_memory.md rule R35). -/
def State.byte (s : State) (addr : Address) : Byte := Memory.read s.mem addr.toNat

/-- `MemWrite(addr, 1, v)` (R12, R35). -/
def State.setByte (s : State) (addr : Address) (v : Byte) : State :=
  { s with mem := Memory.write s.mem addr.toNat v }

/-- `A <- v` (R12). -/
def State.setA (s : State) (v : Byte) : State := { s with a := v }

/-- `C <- b` (R12). -/
def State.setC (s : State) (b : Bool) : State := { s with c := b }

/-- `Z <- b` (R12). -/
def State.setZ (s : State) (b : Bool) : State := { s with z := b }

/-- `SP <- a` (R12). -/
def State.setSp (s : State) (addr : Address) : State := { s with sp := addr }

/-- `PC <- target` (R12). -/
def State.setPc (s : State) (target : Index) : State := { s with pc := target }

/-- `HALT <- 1` (R12, R24). -/
def State.setHalt (s : State) : State := { s with halt := true }

/-- `emit e`: the core appends to the output channel (R12, R105). -/
def State.emit (s : State) (e : Event) : State := { s with out := s.out ++ [e] }

/-- One unconstrained value has been drawn (log entry 3). -/
def State.countDraw (s : State) : State := { s with draws := s.draws + 1 }

/-- PC advances by exactly 1 (R73). In a well-formed image it cannot wrap (R19, log entry 8). -/
def State.advance (s : State) : State := s.setPc (s.pc + 1)

/-- `Done(t, updated)` with `updated = false`: the engine advances PC (R72, R73). -/
def done (t : State) : Result := .next t.advance

/-- `Done(t, updated)` with `updated = true`: PC is as the handler left it (R72, R73). -/
def doneUpdated (t : State) : Result := .next t

/-- Fault entry: "HALT <- 1 and FAULT <- cause", and "Nothing else changes" (R115). -/
def takeFault (k : FaultCause) (s : State) : State := { s with halt := true, fault := causeCode k }

/-- `raise Fault(cause)` (R12, R72, R115): the fault is taken in a next state. -/
def raise (k : FaultCause) (s : State) : Result := .next (takeFault k s)

/-- N, the number of records (10_state.md rule R27, `prog_len` of 00_scope.md rule R9). -/
def State.progLen (s : State) : Nat := s.image.records.length

/-- "The core is stopped when `HALT = 1` or `PC >= N`" (R71). -/
def State.stopped (s : State) : Bool := s.halt || decide (s.progLen ≤ s.pc.toNat)

/-- `IMEM[PC]` (R72): only a PC below N selects a record (R18). -/
def State.fetch (s : State) : Option Record := s.image.records[s.pc.toNat]?

/-- A step request while the core is stopped: "ignored, no state changes" (93_implementation_defined.md
I15, 00_scope.md rule R9, log entry 7). -/
def ignoreStep (s : State) : Result := .next s

/-- An illegal record raises UNKNOWN_OPCODE when it executes (30_encoding.md rule R69, R72). -/
def illegalRecord (s : State) : Result := raise .unknownOpcode s

/-- `rst` asserted (R130, R131): the architectural state takes its reset values and the event stream
is empty; the image, `IN_VALUE` and the parameters stay. -/
def State.applyReset (s : State) : State where
  toArch := resetArch s.params s.draws
  image := s.image
  inValue := s.inValue
  params := s.params
  out := []
  draws := s.draws + resetDraws s.params

end Sys2Proof.Machine
end

