-- ==== Sys2Proof/Machine/Operands.lean ====
section
/-!
DEFINITION. The operand forms of a record: immediate, direct memory, register
(00_scope.md rule R5: there is no register-indirect form; 30_encoding.md rule R56).
-/

namespace Sys2Proof.Machine

/-- Where an instruction takes an 8-bit operand from. -/
inductive Operand where
  /-- The 8-bit immediate of the record, zero-extended, never sign-extended (R56). -/
  | immediate (v : Byte)
  /-- The cell at the record's literal address (R35). -/
  | memory (addr : Address)
  /-- A register of the file (R14). -/
  | register (n : RegIndex)
  /-- The accumulator (R17). -/
  | accumulator
  /-- The `in_value` input (R108). -/
  | input
deriving DecidableEq, Repr

/-- The operand's value in a state. -/
def State.value (s : State) : Operand → Byte
  | .immediate v => v
  | .memory addr => s.byte addr
  | .register n => s.reg n
  | .accumulator => s.a
  | .input => s.inValue

/-- The stack cell a PUSH writes: "Mem[SP]" before SP moves (R106). -/
def State.pushAddress (s : State) : Address := s.sp

/-- The stack cell a POP reads: "the read uses the incremented SP" (R107). -/
def State.popAddress (s : State) : Address := s.sp + 1

end Sys2Proof.Machine
end

