-- ==== Sys2Proof/Machine/Flags.lean ====
section
/-!
DEFINITION. The ALU of 42_alu.md: results and flags. "All values are unsigned; a sum is computed
without a width limit before it is reduced" (rule R86).
-/

namespace Sys2Proof.Machine

/-- `zero(r) = (r == 0)` (R86). -/
def zeroFlag (r : Byte) : Bool := r == 0

/-- The sum before it is reduced, 0 to 510 (R86). -/
def fullSum (a b : Byte) : Nat := a.toNat + b.toNat

/-- `carry = (sum > 255)` (R86). -/
def carryFlag (a b : Byte) : Bool := decide (fullSum a b > 255)

/-- The result of `add8` under each `ADD_WRAP` (R86). -/
def add8 (wrap : AddWrap) (a b : Byte) : Byte :=
  match wrap with
  | .mask => BitVec.ofNat 8 (fullSum a b % 256)
  | .sub255 => BitVec.ofNat 8 (if fullSum a b > 255 then fullSum a b - 255 else fullSum a b)

/-- Does `sub8` draw its result? Only where the cell exceeds A and `SUB_UNDERFLOW = DRAW` (R86). -/
def subDraws (p : SubUnderflow) (a b : Byte) : Bool :=
  decide (a.toNat < b.toNat) && (p == .draw)

/-- The result of `sub8` (R86); `drawn` is the unconstrained value it takes where it draws. -/
def sub8 (p : SubUnderflow) (a b drawn : Byte) : Byte :=
  if b.toNat ≤ a.toNat then BitVec.ofNat 8 (a.toNat - b.toNat)
  else match p with
    | .wrap => BitVec.ofNat 8 (a.toNat + 256 - b.toNat)
    | .draw => drawn

/-- `(A + 1) mod 256` (R94). -/
def inc8 (a : Byte) : Byte := BitVec.ofNat 8 ((a.toNat + 1) % 256)

/-- `(A - 1) mod 256` (R95): 256 is added before 1 is taken away, so the difference is never negative. -/
def dec8 (a : Byte) : Byte := BitVec.ofNat 8 ((a.toNat + 256 - 1) % 256)

/-- `((A << 1) | (A >> 7)) & 0xFF` (R96). -/
def rol8 (a : Byte) : Byte := (a <<< 1) ||| (a >>> 7)

/-- `(A >> 1) | ((A & 1) << 7)` (R97). -/
def ror8 (a : Byte) : Byte := (a >>> 1) ||| ((a &&& 1) <<< 7)

/-- `A <- r; Z <- zero(r)`, the writes common to the ALU and `IN` (R86, R108). C is not touched (R20). -/
def State.setResult (s : State) (r : Byte) : State := (s.setA r).setZ (zeroFlag r)

end Sys2Proof.Machine
end

