-- ==== Sys2Proof/Machine/Alu.lean ====
section
/-!
DEFINITION. 42_alu.md: arithmetic, logic and unary accumulator operations. "Every ALU operation
writes A and recomputes Z from the new A. Only `ADD` writes C."
-/

namespace Sys2Proof.Machine

/-- `(r, c) <- add8(A, operand); A <- r; C <- c; Z <- zero(r)`: the shared form of both ADDs (R87, R88). -/
def addToA (o : Operand) (s : State) : Result :=
  done ((s.setResult (add8 s.params.addWrap s.a (s.value o))).setC (carryFlag s.a (s.value o)))

/-- `A <- r; Z <- zero(r)`, C unchanged: the shared form of the logic and unary operations. -/
def resultToA (r : Byte) (s : State) : Result := done (s.setResult r)

/-- `ADD Rn` (R87). -/
def execAddR (n : RegIndex) (s : State) : Result := addToA (.register n) s

/-- `ADD addr` (R88). -/
def execAddM (addr : Address) (s : State) : Result := addToA (.memory addr) s

/-- `SUB addr` (R89): C is unchanged. Where the result is an unconstrained draw (R86) it is the free
value `Config.drawByte s.draws`, Z is computed from it, and the draw is counted (log entry 3). -/
def execSub (addr : Address) (s : State) : Result :=
  let b := s.value (.memory addr)
  let t := s.setResult (sub8 s.params.subUnderflow s.a b (Config.drawByte s.draws))
  if subDraws s.params.subUnderflow s.a b then done t.countDraw else done t

/-- `AND addr` (R90). -/
def execAnd (addr : Address) (s : State) : Result := resultToA (s.a &&& s.value (.memory addr)) s

/-- `OR addr` (R91). -/
def execOr (addr : Address) (s : State) : Result := resultToA (s.a ||| s.value (.memory addr)) s

/-- `XOR addr` (R92). -/
def execXor (addr : Address) (s : State) : Result := resultToA (s.a ^^^ s.value (.memory addr)) s

/-- `NOT` (R93). -/
def execNot (s : State) : Result := resultToA (~~~s.a) s

/-- `INC` (R94). -/
def execInc (s : State) : Result := resultToA (inc8 s.a) s

/-- `DEC` (R95). -/
def execDec (s : State) : Result := resultToA (dec8 s.a) s

/-- `ROL` (R96). -/
def execRol (s : State) : Result := resultToA (rol8 s.a) s

/-- `ROR` (R97). -/
def execRor (s : State) : Result := resultToA (ror8 s.a) s

end Sys2Proof.Machine
end

