-- ==== Sys2Proof/Machine/Control.lean ====
section
/-!
DEFINITION. 43_control.md: jumps to a record index. "No jump writes a register, memory or a flag."
-/

namespace Sys2Proof.Machine

/-- Shared jump semantics (R98): taken, `PC <- v; updated <- true`; not taken, `updated <- false`. -/
def jumpIf (taken : Bool) (target : Index) (s : State) : Result :=
  if taken then doneUpdated (s.setPc target) else done s

/-- `JMP label` (R100). -/
def execJmp (target : Index) (s : State) : Result := jumpIf true target s

/-- `JZ label` (R101). -/
def execJz (target : Index) (s : State) : Result := jumpIf s.z target s

/-- `JNZ label` (R102). -/
def execJnz (target : Index) (s : State) : Result := jumpIf (!s.z) target s

/-- `JC label` (R103). -/
def execJc (target : Index) (s : State) : Result := jumpIf s.c target s

/-- `JNC label` (R104). -/
def execJnc (target : Index) (s : State) : Result := jumpIf (!s.c) target s

end Sys2Proof.Machine
end

