-- ==== Sys2Proof/Machine/System.lean ====
section
/-!
DEFINITION. 44_stack_io_system.md: stack, I/O, halt, print and the FAULT record.
-/

namespace Sys2Proof.Machine

/-- `PUSH` (R106): at SP = 0 raise STACK_OVERFLOW with no write; otherwise store A at the old SP and
decrement SP. -/
def execPush (s : State) : Result :=
  if s.sp = 0 then raise .stackOverflow s
  else done ((s.setByte s.pushAddress s.a).setSp (s.sp - 1))

/-- `POP` (R107): at SP = 511 raise STACK_UNDERFLOW; otherwise increment SP and load A from the new
SP. Z is not recomputed. -/
def execPop (s : State) : Result :=
  if s.sp = 511 then raise .stackUnderflow s
  else done ((s.setSp s.popAddress).setA (s.byte s.popAddress))

/-- `IN` (R108): `A <- IN_VALUE; Z <- zero(IN_VALUE)`, C unchanged. -/
def execInp (s : State) : Result := done (s.setResult (s.value .input))

/-- `OUT` (R109): `emit Out(A)`. -/
def execOutA (s : State) : Result := done (s.emit (.out s.a))

/-- `OUT Rn` (R110): `emit Out(R[n])`. -/
def execOutR (n : RegIndex) (s : State) : Result := done (s.emit (.out (s.reg n)))

/-- `HLT` (R111): `HALT <- 1; updated <- true`; PC keeps the HLT's own index and FAULT stays. -/
def execHlt (s : State) : Result := doneUpdated s.setHalt

/-- Does `print_check` report a fault? By default never; where the host supplies a check, it sees the
template and the architectural state (R112, log entry 4). -/
def printFaults (template : Index) (s : State) : Bool :=
  match s.params.printCheck with
  | .never => false
  | .host => Config.printCheck s.image.templates[template.toNat]? s.toArch

/-- `PRINT text` (R112): raise PRINT_FAULT where `print_check` says so, else `emit Print(v, s)`, the
state before any write. -/
def execPrint (template : Index) (s : State) : Result :=
  if printFaults template s then raise .printFault s else done (s.emit (.print template s.toArch))

/-- The FAULT record (R113): `raise Fault(cause)`. A cause outside 1 to 9 makes the image ill-formed
(R67) and the model refuses it (log entry 9). -/
def execFault (cause : BitVec 4) (s : State) : Result :=
  match causeOfCode cause with
  | some k => raise k s
  | none => .refused (.illFormedFaultRecord cause)

end Sys2Proof.Machine
end

