-- ==== Sys2Proof/Machine/Transfer.lean ====
section
/-!
DEFINITION. 41_transfer.md: no-op, memory transfer, immediate load, register move. None of them
changes C or Z (10_state.md rule R21), and none uses the stack.
-/

namespace Sys2Proof.Machine

/-- `A <- operand`: the shared form of LDA, LDI and MOV Rs, A. -/
def loadA (o : Operand) (s : State) : Result := done (s.setA (s.value o))

/-- `R[n] <- operand`: the shared form of LDR, LDRI, MOV Rs, Rd and MOV A, Rd. -/
def loadReg (n : RegIndex) (o : Operand) (s : State) : Result := done (s.setReg n (s.value o))

/-- `MemWrite(addr, 1, operand)`: the shared form of STA and STR. -/
def storeByte (addr : Address) (o : Operand) (s : State) : Result := done (s.setByte addr (s.value o))

/-- `NOP` (R76): "Nothing else changes". -/
def execNop (s : State) : Result := done s

/-- `LDA addr` (R77): `A <- MemRead(addr, 1)`. -/
def execLda (addr : Address) (s : State) : Result := loadA (.memory addr) s

/-- `STA addr` (R78): `MemWrite(addr, 1, A)`. -/
def execSta (addr : Address) (s : State) : Result := storeByte addr .accumulator s

/-- `LDR Rn, addr` (R79): `R[n] <- MemRead(addr, 1)`. -/
def execLdr (n : RegIndex) (addr : Address) (s : State) : Result := loadReg n (.memory addr) s

/-- `STR Rn, addr` (R80): `MemWrite(addr, 1, R[n])`. -/
def execStr (n : RegIndex) (addr : Address) (s : State) : Result := storeByte addr (.register n) s

/-- `LDI imm` (R81): `A <- imm`. -/
def execLdi (imm : Byte) (s : State) : Result := loadA (.immediate imm) s

/-- `LDRI Rn, imm` (R82): `R[n] <- imm`. -/
def execLdri (n : RegIndex) (imm : Byte) (s : State) : Result := loadReg n (.immediate imm) s

/-- `MOV Rs, Rd` (R83): `R[d] <- R[s]`, source first. -/
def execMovRR (src dst : RegIndex) (s : State) : Result := loadReg dst (.register src) s

/-- `MOV Rs, A` (R84): `A <- R[s]`. -/
def execMovRA (src : RegIndex) (s : State) : Result := loadA (.register src) s

/-- `MOV A, Rd` (R85): `R[d] <- A`. -/
def execMovAR (dst : RegIndex) (s : State) : Result := loadReg dst .accumulator s

end Sys2Proof.Machine
end

