-- ==== Sys2Proof/Machine/Dispatch.lean ====
section
/-!
DEFINITION. `execute(op, s)` of 40_execution_engine.md rule R72: one arm per form.
-/

namespace Sys2Proof.Machine

def exec (i : Instr) (s : State) : Host.Outcome State Fault Refusal :=
  match i with
  | .nop => Sys2Proof.Machine.execNop s
  | .lda addr => Sys2Proof.Machine.execLda addr s
  | .sta addr => Sys2Proof.Machine.execSta addr s
  | .ldr n addr => Sys2Proof.Machine.execLdr n addr s
  | .str n addr => Sys2Proof.Machine.execStr n addr s
  | .ldi imm => Sys2Proof.Machine.execLdi imm s
  | .ldri n imm => Sys2Proof.Machine.execLdri n imm s
  | .movRR src dst => Sys2Proof.Machine.execMovRR src dst s
  | .movRA src => Sys2Proof.Machine.execMovRA src s
  | .movAR dst => Sys2Proof.Machine.execMovAR dst s
  | .addR n => Sys2Proof.Machine.execAddR n s
  | .addM addr => Sys2Proof.Machine.execAddM addr s
  | .sub addr => Sys2Proof.Machine.execSub addr s
  | .and addr => Sys2Proof.Machine.execAnd addr s
  | .or addr => Sys2Proof.Machine.execOr addr s
  | .xor addr => Sys2Proof.Machine.execXor addr s
  | .not => Sys2Proof.Machine.execNot s
  | .inc => Sys2Proof.Machine.execInc s
  | .dec => Sys2Proof.Machine.execDec s
  | .rol => Sys2Proof.Machine.execRol s
  | .ror => Sys2Proof.Machine.execRor s
  | .jmp target => Sys2Proof.Machine.execJmp target s
  | .jz target => Sys2Proof.Machine.execJz target s
  | .jnz target => Sys2Proof.Machine.execJnz target s
  | .jc target => Sys2Proof.Machine.execJc target s
  | .jnc target => Sys2Proof.Machine.execJnc target s
  | .push => Sys2Proof.Machine.execPush s
  | .pop => Sys2Proof.Machine.execPop s
  | .inp => Sys2Proof.Machine.execInp s
  | .outA => Sys2Proof.Machine.execOutA s
  | .outR n => Sys2Proof.Machine.execOutR n s
  | .hlt => Sys2Proof.Machine.execHlt s
  | .print template => Sys2Proof.Machine.execPrint template s
  | .fault cause => Sys2Proof.Machine.execFault cause s

end Sys2Proof.Machine
end

