-- ==== Sys2Proof/Machine/Load.lean ====
section
/-!
DEFINITION. The program image: when it is well-formed (30_encoding.md rule R67), and how a run starts
from one (70_reset_and_hazards.md rules R131 and R132).
-/

namespace Sys2Proof.Machine

/-- Does the word match a row of opcode_table.json? It does exactly where it decodes (R69). -/
def isLegalRecord (w : Record) : Bool :=
  match decode w with
  | .ok _ => true
  | .error _ => false

/-- The conditions of R67 on the instruction of one record, in an image of `n` records and `t` templates:
a FAULT cause in 1 to 9, a jump target and a template index in range. -/
def recordWf (n t : Nat) (w : Record) : Bool :=
  match decode w with
  | .ok i => i.wf && i.fits n t
  | .error _ => false

/-- Does every record match a row of the table? A well-formed image holds no reserved word, as decision
D28 of 92_eei_decisions.md and items I18 and I21 say beside R67 (log entry 10). -/
def Image.allDecode (m : Image) : Bool := m.records.all isLegalRecord

/-- A well-formed program image (R67, with D28). -/
def Image.wf (m : Image) : Bool :=
  decide (m.records.length ≤ 65535) && m.allDecode && m.records.all (recordWf m.records.length m.templates.length)

/-- The state the host releases from reset (R130, R132): an image, `IN_VALUE` and the parameters
presented, and every other field at its reset value. `k` numbers the first draw (log entry 3). -/
def presented (p : Params) (v : Byte) (m : Image) (k : Nat) : State where
  toArch := resetArch p k
  image := m
  inValue := v
  params := p
  out := []
  draws := k + resetDraws p

/-- Boot (R132): "A model refuses an ill-formed image and gives it no run" (R67). -/
def boot (p : Params) (v : Byte) (m : Image) (k : Nat) : Option State :=
  if m.wf then some (presented p v m k) else none

/-- A list with entry `k` set to `x`, filled up with `fill` where it is shorter. -/
def setPadded {α : Type} (fill x : α) : Nat → List α → List α
  | 0, [] => [x]
  | 0, _ :: l => x :: l
  | k + 1, [] => fill :: setPadded fill x k []
  | k + 1, y :: l => y :: setPadded fill x k l

/-- The state with the record `w` at index PC of the instruction store (NOP records up to it where the
store is shorter) and HALT clear, so that the next step runs `w`; nothing else differs (log entry 6). -/
def placeRecord (s : State) (w : Record) : State :=
  { s with halt := false, image := { s.image with records := setPadded 0 w s.pc.toNat s.image.records } }

end Sys2Proof.Machine
end

