-- ==== Sys2Proof/Machine/Step.lean ====
section
/-!
DEFINITION. One architectural step (40_execution_engine.md rule R72): fetch the record at PC, decode it,
execute it; the meanings advance PC (rule R73) and take faults (60_exceptions.md rule R115).
-/

namespace Sys2Proof.Machine

/-- One step request (R9, R71, R72). A stopped core ignores it; an illegal record raises
UNKNOWN_OPCODE (30_encoding.md rule R69). -/
def step (s : State) : Host.Outcome State Fault Refusal :=
  if s.stopped then ignoreStep s
  else match s.fetch with
    | none => ignoreStep s
    | some w =>
      match decode w with
      | .ok i => exec i s
      | .error _ => illegalRecord s

/-- `s` with the record of the low `nbits` bits of `w` stored where the next step fetches: record PC
of the instruction store, with HALT clear. It stands for the host's loading of a program (R131, log
entry 6). -/
def State.withFetchWord (s : State) (nbits w : Nat) : State :=
  placeRecord s (BitVec.ofNat 32 (w % 2 ^ nbits))

end Sys2Proof.Machine
end

