-- ==== Sys2Proof/Machine/Interface.lean ====
section
/-!
DEFINITION. The block's interface (00_scope.md rules R9 and R10): what the host's two inputs do between
steps, what each output shows, and how the host renders an event (44_stack_io_system.md rule R105).
-/

namespace Sys2Proof.Machine

/-- One round of the inputs `rst` and `step` (R9). While `rst` is asserted the core holds the reset
state (R130), whatever `step` says (log entry 15); a step request performs one step; with neither, the
state stays. DESIGN CHOICE, safe: under `RESET_REGS = DRAW` every round with `rst` asserted draws A, R0 to
R15, C and Z anew, since the spec does not say whether a reset that is held keeps one draw (log entry 19). -/
def cycle (rst stepRequest : Bool) (s : State) : Result :=
  if rst then .next s.applyReset
  else if stepRequest then step s
  else .next s

/-- `imem_addr` equals PC (R9). -/
def imemAddr (s : State) : Index := s.pc

/-- `imem_data`: the record at `imem_addr`, where there is one (R9). -/
def imemData (s : State) : Option Record := s.fetch

/-- `halted` (R9, R24). -/
def haltedPort (s : State) : Bool := s.halt

/-- `fault` (R9, R25). -/
def faultPort (s : State) : BitVec 4 := s.fault

/-- `stopped` = `halted OR (PC >= N)` (R9, R71). -/
def stoppedPort (s : State) : Bool := s.stopped

/-- What the snapshot port shows, exactly: A, R0 to R15, PC, SP, C, Z and Mem[0..511] (R9, R10). HALT and
FAULT are not on it; they have ports of their own. -/
structure Snapshot where
  a : Byte
  regs : Vector Byte 16
  pc : Index
  sp : Address
  c : Bool
  z : Bool
  mem : Memory
deriving DecidableEq, Repr

/-- The snapshot port (R9, R10): a read-only view of the state. -/
def snapshot (s : State) : Snapshot :=
  { a := s.a, regs := s.regs, pc := s.pc, sp := s.sp, c := s.c, z := s.z, mem := s.mem }

/-- The event a step from `s` to `t` emitted, if any: at most one per step (R105). -/
def emitted (s t : State) : Option Event := t.out[s.out.length]?

/-- `out_valid` and `out_data` of a step (R9): the value of an OUT event. -/
def outPort (s t : State) : Option Byte :=
  match emitted s t with
  | some (.out v) => some v
  | _ => none

/-- `print_valid` and `print_tmpl` of a step (R9): the template index of a PRINT event. -/
def printPort (s t : State) : Option Index :=
  match emitted s t with
  | some (.print k _) => some k
  | _ => none

/-- The host's rendering of an event: the decimal text of an OUT value (R105); `print_render` for a
PRINT (R112, log entry 5). -/
def renderEvent (templates : List Text) : Event → Text
  | .out v => Nat.toDigits 10 v.toNat
  | .print k snap => Config.printRender templates[k.toNat]? snap

/-- The text of each event so far, in order; what separates them is the host's (93_implementation_defined.md I16). -/
def renderedOutput (s : State) : List Text := s.out.map (renderEvent s.image.templates)

end Sys2Proof.Machine
end

