-- ==== Sys2Proof/Machine/Loader.lean ====
section
/-!
DEFINITION. The host-side loader and the text level of the instruction set: 30_encoding.md rules R48 to
R63 and R66. It is in the spec's scope (00_scope.md rule R3) and runs before reset is released; no step
runs it. Text is a list of characters.
-/

namespace Sys2Proof.Machine

/-! ### Characters and lines -/

/-- Whitespace inside a line: space, tab, CR (R48), vertical tab and form feed. LF ends a line.
DESIGN CHOICE: the spec lists no characters but CR (log entry 12). -/
def isBlank (c : Char) : Bool :=
  c == ' ' || c == '\t' || c == '\r' || c == '\x0b' || c == '\x0c'

/-- What ends the opcode token and separates operands: whitespace or a comma (R54). -/
def isSeparator (c : Char) : Bool := isBlank c || c == ','

/-- The source's lines: LF separates them (R48). -/
def splitLines : Text → List Text
  | [] => [[]]
  | c :: cs =>
    if c == '\n' then [] :: splitLines cs
    else match splitLines cs with
      | [] => [[c]]
      | l :: ls => (c :: l) :: ls

/-- "everything from the first ';' to end of line removed" (R49 step 1). -/
def stripComment (l : Text) : Text := l.takeWhile (· != ';')

/-- Trailing whitespace removed. -/
def trimEnd (l : Text) : Text := (l.reverse.dropWhile isBlank).reverse

/-- "leading and trailing whitespace removed" (R49 step 2). -/
def trim (l : Text) : Text := trimEnd (l.dropWhile isBlank)

/-- ASCII case folding (R54). -/
def foldCase (t : Text) : Text := t.map Char.toUpper

/-- "The opcode token is the line up to its first whitespace or comma character" (R54). -/
def firstToken (l : Text) : Text := l.takeWhile fun c => !isSeparator c

/-- The rest of the line after the opcode token. -/
def afterToken (l : Text) : Text := l.dropWhile fun c => !isSeparator c

/-- Pieces between runs of separators, empty pieces dropped; `acc` is the piece being read (R54). -/
def splitTokens (acc : Text) : Text → List Text
  | [] => if acc.isEmpty then [] else [acc]
  | c :: cs =>
    if isSeparator c then (if acc.isEmpty then splitTokens [] cs else acc :: splitTokens [] cs)
    else splitTokens (acc ++ [c]) cs

/-- The operand list of a line (R54). -/
def operandTokens (l : Text) : List Text := splitTokens [] (afterToken l)

/-! ### Mnemonics -/

/-- The mnemonics of R60. -/
inductive Mnemonic where
  | nop | lda | sta | ldr | str | ldi | ldri | mov | add | sub | and | or | xor | not | inc | dec
  | rol | ror | jmp | jz | jnz | jc | jnc | push | pop | inp | out | hlt | print
deriving DecidableEq, Repr

/-- The spellings of R60, in upper case. -/
def mnemonicTable : List (Text × Mnemonic) := [
  ("NOP".toList, .nop), ("LDA".toList, .lda), ("STA".toList, .sta), ("LDR".toList, .ldr),
  ("STR".toList, .str), ("LDI".toList, .ldi), ("LDRI".toList, .ldri), ("MOV".toList, .mov),
  ("ADD".toList, .add), ("SUB".toList, .sub), ("AND".toList, .and), ("OR".toList, .or),
  ("XOR".toList, .xor), ("NOT".toList, .not), ("INC".toList, .inc), ("DEC".toList, .dec),
  ("ROL".toList, .rol), ("ROR".toList, .ror), ("JMP".toList, .jmp), ("JZ".toList, .jz),
  ("JNZ".toList, .jnz), ("JC".toList, .jc), ("JNC".toList, .jnc), ("PUSH".toList, .push),
  ("POP".toList, .pop), ("IN".toList, .inp), ("OUT".toList, .out), ("HLT".toList, .hlt),
  ("PRINT".toList, .print)]

/-- "The opcode is matched against rule R60's mnemonic table ignoring ASCII case" (R54). -/
def mnemonicOf (token : Text) : Option Mnemonic := mnemonicTable.lookup (foldCase token)

/-! ### The loader's first pass -/

/-- What the first pass has collected: the Decoded Program and the label table (R49). -/
structure Listing where
  program : List Text
  labels : List (Text × Nat)
deriving DecidableEq, Repr

/-- `program.append(L); k <- k + 1` (R49): k is the program's length. -/
def Listing.append (p : Listing) (l : Text) : Listing := { p with program := p.program ++ [l] }

/-- `labels[name] <- k` (R49). -/
def Listing.define (p : Listing) (name : Text) : Listing :=
  { p with labels := p.labels ++ [(name, p.program.length)] }

/-- The text before and after the first ':' where there is one (R49 step 5). -/
def splitLabel (l : Text) : Option (Text × Text) :=
  if l.contains ':' then some (l.takeWhile (· != ':'), (l.dropWhile (· != ':')).tail) else none

/-- One source line (R49). -/
def scanLine (p : Listing) (source : Text) : Listing :=
  let l := trim (stripComment source)
  if l.isEmpty then p
  else if mnemonicOf (firstToken l) == some .print then p.append l
  else match splitLabel l with
    | none => p.append l
    | some (name, rest) =>
      if (trim rest).isEmpty then p.define (trim name)
      else (p.define (trim name)).append (trim rest)

/-- The first pass over a source (R49). -/
def scan (source : Text) : Listing := (splitLines source).foldl scanLine ⟨[], []⟩

/-- A well-formed label name: "non-empty and contains no whitespace, `,`, `:` or `;`" (R51). -/
def labelNameWf (name : Text) : Bool :=
  !name.isEmpty && name.all fun c => !(isSeparator c || c == ':' || c == ';')

/-- "A name may be defined at most once" (R51). -/
def namesDistinct : List Text → Bool
  | [] => true
  | n :: ns => !ns.contains n && namesDistinct ns

/-! ### Operands -/

/-- The value of a digit below the base: 0 to 9, and a to f or A to F in base 16 (R55). -/
def digitValue (base : Nat) (c : Char) : Option Nat :=
  let d :=
    if '0' ≤ c ∧ c ≤ '9' then some (c.toNat - '0'.toNat)
    else if 'a' ≤ c ∧ c ≤ 'f' then some (c.toNat - 'a'.toNat + 10)
    else if 'A' ≤ c ∧ c ≤ 'F' then some (c.toNat - 'A'.toNat + 10)
    else none
  d.filter (· < base)

/-- The number that `acc` and the digits after it spell. -/
def digitsFrom (base acc : Nat) : Text → Option Nat
  | [] => some acc
  | c :: cs =>
    match digitValue base c with
    | none => none
    | some d => digitsFrom base (acc * base + d) cs

/-- "one or more" digits, leading zeros allowed (R55). -/
def digits (base : Nat) (t : Text) : Option Nat := if t.isEmpty then none else digitsFrom base 0 t

/-- A register token: `R` followed by one or more decimal digits (R55). -/
def registerToken : Text → Option Nat
  | 'R' :: ds => digits 10 ds
  | _ => none

/-- The accumulator sentinel: exactly `A` (R55). -/
def isSentinel (t : Text) : Bool := t == ['A']

/-- An address literal: `0x` or `0X` and hex digits, or decimal digits (R55). -/
def addressLiteral : Text → Option Nat
  | '0' :: 'x' :: ds => digits 16 ds
  | '0' :: 'X' :: ds => digits 16 ds
  | t => digits 10 t

/-- An immediate literal: decimal digits (R55). -/
def immediateLiteral (t : Text) : Option Nat := digits 10 t

/-- A register operand, or its fault: the kind first, then the range 0 to 15 (R56, R57, R63). -/
def registerOperand (t : Text) : Except FaultCause RegIndex :=
  match registerToken t with
  | none => .error .operandSyntax
  | some n => if n ≤ 15 then .ok (BitVec.ofNat 4 n) else .error .registerRange

/-- An address operand, or its fault: the kind first, then the range 0 to 511; never wrapped (R56, R57, R63). -/
def addressOperand (t : Text) : Except FaultCause Address :=
  match addressLiteral t with
  | none => .error .operandSyntax
  | some a => if a ≤ 511 then .ok (BitVec.ofNat 9 a) else .error .addressRange

/-- An immediate operand: `v mod 256`, never a range fault (R56). -/
def immediateOperand (t : Text) : Except FaultCause Byte :=
  match immediateLiteral t with
  | none => .error .operandSyntax
  | some v => .ok (BitVec.ofNat 8 (v % 256))

/-- A label operand: the index the label table gives, or UNRESOLVED_LABEL (R56). -/
def labelOperand (labels : List (Text × Nat)) (t : Text) : Except FaultCause Index :=
  match labels.lookup t with
  | none => .error .unresolvedLabel
  | some k => .ok (BitVec.ofNat 16 k)

/-- An operand of MOV: a register, or `none` for the sentinel (R61). -/
def moveOperand (t : Text) : Except FaultCause (Option RegIndex) :=
  if isSentinel t then .ok none
  else match registerOperand t with
    | .ok n => .ok (some n)
    | .error c => .error c

/-! ### Decoding a line -/

/-- What a line decodes to: an instruction whose record is complete, or a print with its template,
whose index the loader gives (R59, R66). -/
inductive Line where
  | instr (i : Instr)
  | print (template : Text)
deriving DecidableEq, Repr

/-- A mnemonic with no operand (R58). -/
def noOperand (i : Instr) : List Text → Except FaultCause Line
  | [] => .ok (.instr i)
  | _ => .error .operandCount

/-- A mnemonic with one operand, read by `f` (R58). -/
def oneOperand {α : Type} (f : Text → Except FaultCause α) (mk : α → Instr) : List Text → Except FaultCause Line
  | [t] =>
    match f t with
    | .ok x => .ok (.instr (mk x))
    | .error c => .error c
  | _ => .error .operandCount

/-- A mnemonic with two operands, read by `f` and `g`, left to right (R58, R63). -/
def twoOperands {α β : Type} (f : Text → Except FaultCause α) (g : Text → Except FaultCause β)
    (mk : α → β → Instr) : List Text → Except FaultCause Line
  | [t, u] =>
    match f t with
    | .error c => .error c
    | .ok x =>
      match g u with
      | .error c => .error c
      | .ok y => .ok (.instr (mk x y))
  | _ => .error .operandCount

/-- `ADD t`: a register token gives ADD_R, else an address literal ADD_M, else OPERAND_SYNTAX (R61). -/
def addOperand (t : Text) : Except FaultCause Instr :=
  match registerToken t with
  | some _ =>
    match registerOperand t with
    | .ok n => .ok (.addR n)
    | .error c => .error c
  | none =>
    match addressOperand t with
    | .ok a => .ok (.addM a)
    | .error c => .error c

/-- `MOV s, d` by the kinds of its operands; `MOV A, A` is OPERAND_SYNTAX (R61). Each operand is
checked before the combination (R63). -/
def moveLine : List Text → Except FaultCause Line
  | [t, u] =>
    match moveOperand t with
    | .error c => .error c
    | .ok x =>
      match moveOperand u with
      | .error c => .error c
      | .ok y =>
        match x, y with
        | some s, some d => .ok (.instr (.movRR s d))
        | some s, none => .ok (.instr (.movRA s))
        | none, some d => .ok (.instr (.movAR d))
        | none, none => .error .operandSyntax
  | _ => .error .operandCount

/-- `OUT` with no operand is OUT_A, with one register token OUT_R (R58, R61). -/
def outLine : List Text → Except FaultCause Line
  | [] => .ok (.instr .outA)
  | ts => oneOperand registerOperand .outR ts

/-- The PRINT template: the text after the opcode token and the whitespace that follows it, trailing
whitespace removed (R59). -/
def printTemplate (l : Text) : Text := trimEnd ((afterToken l).dropWhile isBlank)

/-- The operands of a mnemonic, by R60's table. PRINT is not counted (R58, R59). -/
def decodeOperands (labels : List (Text × Nat)) (l : Text) (ts : List Text) : Mnemonic → Except FaultCause Line
  | .nop => noOperand .nop ts
  | .lda => oneOperand addressOperand .lda ts
  | .sta => oneOperand addressOperand .sta ts
  | .ldr => twoOperands registerOperand addressOperand .ldr ts
  | .str => twoOperands registerOperand addressOperand .str ts
  | .ldi => oneOperand immediateOperand .ldi ts
  | .ldri => twoOperands registerOperand immediateOperand .ldri ts
  | .mov => moveLine ts
  | .add => oneOperand addOperand id ts
  | .sub => oneOperand addressOperand .sub ts
  | .and => oneOperand addressOperand .and ts
  | .or => oneOperand addressOperand .or ts
  | .xor => oneOperand addressOperand .xor ts
  | .not => noOperand .not ts
  | .inc => noOperand .inc ts
  | .dec => noOperand .dec ts
  | .rol => noOperand .rol ts
  | .ror => noOperand .ror ts
  | .jmp => oneOperand (labelOperand labels) .jmp ts
  | .jz => oneOperand (labelOperand labels) .jz ts
  | .jnz => oneOperand (labelOperand labels) .jnz ts
  | .jc => oneOperand (labelOperand labels) .jc ts
  | .jnc => oneOperand (labelOperand labels) .jnc ts
  | .push => noOperand .push ts
  | .pop => noOperand .pop ts
  | .inp => noOperand .inp ts
  | .out => outLine ts
  | .hlt => noOperand .hlt ts
  | .print => .ok (.print (printTemplate l))

/-- Decode one line of the Decoded Program, checking in the order of R63: the mnemonic, the count,
then each operand left to right, then their combination. -/
def decodeLine (labels : List (Text × Nat)) (l : Text) : Except FaultCause Line :=
  match mnemonicOf (firstToken l) with
  | none => .error .unknownOpcode
  | some m => decodeOperands labels l (operandTokens l) m

/-! ### The image -/

/-- Record k for each line k (R66): a line that faults becomes a FAULT record, and the next PRINT
template takes index `t` (log entry 13). -/
def translateLines (labels : List (Text × Nat)) : Nat → List Text → Image
  | _, [] => Image.empty
  | t, l :: ls =>
    match decodeLine labels l with
    | .error c =>
      let r := translateLines labels t ls
      ⟨encode (.fault (causeCode c)) :: r.records, r.templates⟩
    | .ok (.instr i) =>
      let r := translateLines labels t ls
      ⟨encode i :: r.records, r.templates⟩
    | .ok (.print text) =>
      let r := translateLines labels (t + 1) ls
      ⟨encode (.print (BitVec.ofNat 16 t)) :: r.records, text :: r.templates⟩

/-- Why a source has no image. -/
inductive LoadRefusal where
  /-- A label name that R51 does not allow. -/
  | malformedLabel
  /-- A label name defined twice (R51). -/
  | duplicateLabel
  /-- More than 65535 instruction lines (R53). -/
  | programTooLong
deriving DecidableEq, Repr

/-- The loader: text to a program image, or the refusal of a source that has none (R49 to R53, R66). -/
def load (source : Text) : Except LoadRefusal Image :=
  let p := scan source
  if !(p.labels.all fun e => labelNameWf e.1) then .error .malformedLabel
  else if !namesDistinct (p.labels.map Prod.fst) then .error .duplicateLabel
  else if 65535 < p.program.length then .error .programTooLong
  else .ok (translateLines p.labels 0 p.program)

end Sys2Proof.Machine
end

