-- ==== Sys2Proof/Safety.lean ====
section
/-!
DEFINITION. What counts as a legal state and a run that worked, and the words the statements use to say
what an instruction changes and what it leaves alone.
-/

namespace Sys2Proof.Machine

/-! ### Legal states and ends of a run -/

/-- A state that a run of a well-formed image can be in, as the spec says: memory in its canonical form,
a well-formed image (30_encoding.md rule R67), PC in 0..N (10_state.md rule R18), FAULT never a reserved
code, and not 0 only where HALT is 1 (rule R25). -/
abbrev State.Legal (s : State) : Prop :=
  Memory.wf s.mem = true ∧ s.image.wf = true ∧ s.pc.toNat ≤ s.progLen ∧
    s.fault.toNat ≤ 9 ∧ (s.fault ≠ 0 → s.halt = true)

/-- The run ended by exhaustion: "PC reaches N. HALT stays 0 and FAULT stays NONE" (40_execution_engine.md rule R71). -/
abbrev State.Exhausted (s : State) : Prop := s.halt = false ∧ s.progLen ≤ s.pc.toNat ∧ s.fault = 0

/-- The run ended by `HLT`: "HALT = 1 and FAULT = NONE" (R71). -/
abbrev State.HaltedByHlt (s : State) : Prop := s.halt = true ∧ s.fault = 0

/-- The run ended by a fault: "HALT = 1 and FAULT holds the cause" (R71). -/
abbrev State.Faulted (s : State) : Prop := s.halt = true ∧ s.fault ≠ 0

/-- The run has ended and no fault ended it: what a claim means by "the program worked" (section 'End of
run' of 40_execution_engine.md). -/
abbrev State.Worked (s : State) : Prop := s.stopped = true ∧ s.fault = 0

/-! ### Frames -/

/-- The state other than PC that an instruction may write; everything not named is kept. -/
structure Writes where
  a : Bool := false
  c : Bool := false
  z : Bool := false
  sp : Bool := false
  halt : Bool := false
  fault : Bool := false
  out : Bool := false
  draws : Bool := false
  /-- The one register that may change, if any. -/
  reg : Option RegIndex := none
  /-- The one memory cell that may change, if any. -/
  cell : Option Address := none
deriving DecidableEq, Repr

/-- From `s` to `t` nothing changes but PC and what `w` names. The image, `IN_VALUE` and the
parameters never change. -/
structure Frame (w : Writes) (s t : State) : Prop where
  a : w.a = false → t.a = s.a
  c : w.c = false → t.c = s.c
  z : w.z = false → t.z = s.z
  sp : w.sp = false → t.sp = s.sp
  halt : w.halt = false → t.halt = s.halt
  fault : w.fault = false → t.fault = s.fault
  out : w.out = false → t.out = s.out
  draws : w.draws = false → t.draws = s.draws
  reg : ∀ n, w.reg ≠ some n → t.reg n = s.reg n
  byte : ∀ addr, w.cell ≠ some addr → t.byte addr = s.byte addr
  image : t.image = s.image
  inValue : t.inValue = s.inValue
  params : t.params = s.params

/-- What a fault writes (60_exceptions.md rule R115). -/
def Writes.ofFault : Writes := { halt := true, fault := true }

/-- What each instruction may write, by the lists of 10_state.md rules R15, R17, R20, R23, R24 and R25,
20_memory.md rule R35 and 44_stack_io_system.md rule R105. `draws` is the model's own counter. -/
def writesOf (i : Instr) (s : State) : Writes :=
  match i with
  | .nop | .jmp _ | .jz _ | .jnz _ | .jc _ | .jnc _ => {}
  | .lda _ | .ldi _ | .movRA _ => { a := true }
  | .sta addr | .str _ addr => { cell := some addr }
  | .ldr n _ | .ldri n _ | .movRR _ n | .movAR n => { reg := some n }
  | .addR _ | .addM _ => { a := true, c := true, z := true }
  | .sub _ => { a := true, z := true, draws := true }
  | .and _ | .or _ | .xor _ | .not | .inc | .dec | .rol | .ror | .inp => { a := true, z := true }
  | .push => if s.sp = 0 then .ofFault else { cell := some s.pushAddress, sp := true }
  | .pop => if s.sp = 511 then .ofFault else { a := true, sp := true }
  | .outA | .outR _ => { out := true }
  | .hlt => { halt := true }
  | .print template => if printFaults template s then .ofFault else { out := true }
  | .fault _ => .ofFault

/-- PC after each instruction (10_state.md rule R19, 40_execution_engine.md rule R73): a taken jump's
target; unchanged for HLT and for any fault; PC + 1 otherwise. -/
def pcAfter (i : Instr) (s : State) : Index :=
  match i with
  | .jmp target => target
  | .jz target => if s.z then target else s.pc + 1
  | .jnz target => if s.z then s.pc + 1 else target
  | .jc target => if s.c then target else s.pc + 1
  | .jnc target => if s.c then s.pc + 1 else target
  | .hlt => s.pc
  | .push => if s.sp = 0 then s.pc else s.pc + 1
  | .pop => if s.sp = 511 then s.pc else s.pc + 1
  | .print template => if printFaults template s then s.pc else s.pc + 1
  | .fault _ => s.pc
  | .nop | .lda _ | .sta _ | .ldr _ _ | .str _ _ | .ldi _ | .ldri _ _ | .movRR _ _ | .movRA _ | .movAR _
  | .addR _ | .addM _ | .sub _ | .and _ | .or _ | .xor _ | .not | .inc | .dec | .rol | .ror
  | .inp | .outA | .outR _ => s.pc + 1

/-- The instructions rule R20 lists as writers of Z. -/
def writesZero : Instr → Bool
  | .addR _ | .addM _ | .sub _ | .and _ | .or _ | .xor _ | .not | .inc | .dec | .rol | .ror | .inp => true
  | _ => false

/-- The instructions rule R20 lists as writers of C. -/
def writesCarry : Instr → Bool
  | .addR _ | .addM _ => true
  | _ => false

/-- The readers of C: JC and JNC (R20), and PRINT, whose event shows the flags (R20, R105). -/
def readsCarry : Instr → Bool
  | .jc _ | .jnc _ | .print _ => true
  | _ => false

/-- The readers of Z: JZ and JNZ (R20), and PRINT, whose event shows the flags (R20, R105). -/
def readsZero : Instr → Bool
  | .jz _ | .jnz _ | .print _ => true
  | _ => false

/-- The Count column of R60; PRINT "is not counted" (R58). -/
def operandCounts : Mnemonic → Option (List Nat)
  | .nop | .not | .inc | .dec | .rol | .ror | .push | .pop | .inp | .hlt => some [0]
  | .lda | .sta | .ldi | .add | .sub | .and | .or | .xor | .jmp | .jz | .jnz | .jc | .jnc => some [1]
  | .ldr | .str | .ldri | .mov => some [2]
  | .out => some [0, 1]
  | .print => none

/-! ### The grammar of operand tokens (R55) -/

/-- One or more decimal digits. -/
abbrev IsDecimal (t : Text) : Prop := t ≠ [] ∧ ∀ c ∈ t, c.isDigit = true

/-- One or more hex digits `0-9 a-f A-F`. -/
abbrev IsHex (t : Text) : Prop :=
  t ≠ [] ∧ ∀ c ∈ t, c.isDigit = true ∨ ('a' ≤ c ∧ c ≤ 'f') ∨ ('A' ≤ c ∧ c ≤ 'F')

/-- A register token: `R` and one or more decimal digits. -/
abbrev IsRegisterToken (t : Text) : Prop := ∃ ds, t = 'R' :: ds ∧ IsDecimal ds

/-- An address literal: `0x` or `0X` and hex digits, or decimal digits. -/
abbrev IsAddressLiteral (t : Text) : Prop :=
  IsDecimal t ∨ ∃ x ds, t = '0' :: x :: ds ∧ (x = 'x' ∨ x = 'X') ∧ IsHex ds

/-- A text that neither begins nor ends with whitespace. -/
abbrev IsTrimmed (t : Text) : Prop := (∀ c ∈ t.head?, isBlank c = false) ∧ ∀ c ∈ t.getLast?, isBlank c = false

/-! ### Several instructions -/

/-- Execute instructions one after the other, from meaning to meaning, stopping at a fault or refusal
of the model. It fetches nothing: it composes `exec`. -/
def execAll : List Instr → State → Result
  | [], s => .next s
  | i :: is, s =>
    match exec i s with
    | .next t => execAll is t
    | .fault r => .fault r
    | .refused r => .refused r

end Sys2Proof.Machine
end

