-- ==== Sys2Proof/Certificates/Slice0/Obligations.lean ====
section
/-!
DEFINITION. The statements for the provers, `def Obligations.<Name> : Prop`. Each says in its docstring
which rule of spec/ it formalises, or what it derives from which; OBLIGATIONS.json lists them.
-/

open Sys2Proof Sys2Proof.Machine

/-! ### Encoding (30_encoding.md) -/

/-- The ten records of R70, and one more word for the control, stack and logic families, decode to the
instructions they stand for. -/
def Obligations.DecodesWrittenWords : Prop :=
  decode 0x18400005 = .ok (.ldri 1 5) ∧ decode 0x20400000 = .ok (.movRA 1) ∧
  decode 0x1C9C0000 = .ok (.movRR 2 7) ∧ decode 0x44000000 = .ok .inc ∧ decode 0x74000000 = .ok .outA ∧
  decode 0x7C000000 = .ok .hlt ∧ decode 0x080001FF = .ok (.sta 511) ∧ decode 0xFC000005 = .ok (.fault 5) ∧
  decode 0xFC000001 = .ok (.fault 1) ∧ decode 0x5C000001 = .ok (.jnz 1) ∧
  decode 0x3C000001 = .ok (.xor 1) ∧ decode 0x68000000 = .ok .push ∧ decode 0x80000000 = .ok (.print 0)

/-- Decoding an encoded instruction gives it back, for every instruction and every operand its fields
admit (R64, R65). A FAULT record with a reserved cause is included: it decodes, and is refused later. -/
def Obligations.DecodeOfEncodeIsTheInstruction : Prop :=
  ∀ i : Instr, decode (encode i) = .ok i

/-- A word that decodes is the encoding of what it decodes to: every bit of a legal record is read, and
no two words mean the same instruction (R64, R65, R69). -/
def Obligations.EncodeOfDecodeIsTheWord : Prop :=
  ∀ (w : Record) (i : Instr), decode w = .ok i → encode i = w

/-- The decoder, written from the tags and fields of R64 and R65, accepts exactly the words of the rows of
spec/opcode_table.json, and answers an instruction of the row that the word matches; so no word
matches two rows. -/
def Obligations.DecoderAgreesWithTheOpcodeTable : Prop :=
  ∀ w : Record,
    (∀ i, decode w = .ok i → ∃ r, opcodeTable[i.row]? = some r ∧ r.matchesWord w = true) ∧
    (∀ k r, opcodeTable[k]? = some r → r.matchesWord w = true → ∃ i, decode w = .ok i ∧ i.row = k)

/-- R69: a line whose opcode token is no mnemonic decodes to UNKNOWN_OPCODE, and executing the record the
loader writes for that cause raises it; a word that matches no row raises UNKNOWN_OPCODE when it executes. -/
def Obligations.IllegalEncodingsRaiseUnknownOpcode : Prop :=
  (∀ labels l, (∀ e ∈ mnemonicTable, e.1 ≠ foldCase (firstToken l)) →
    decodeLine labels l = .error .unknownOpcode) ∧
  (∀ s, exec (.fault (causeCode .unknownOpcode)) s = .next (takeFault .unknownOpcode s)) ∧
  (∀ (s : State) (w : Record), s.halt = false → s.image.records[s.pc.toNat]? = some w →
    (∀ r ∈ opcodeTable, r.matchesWord w = false) →
    ∃ t, step s = .next t ∧ t.halt = true ∧ t.fault = 1 ∧ t.pc = s.pc ∧ Frame .ofFault s t)

/-! ### The step (40_execution_engine.md) -/

/-- When the core is not halted and the record at PC decodes to `i`, a step is `exec i` and nothing more
(R72): the meanings themselves advance PC (see `PcAfterEveryInstruction`). -/
def Obligations.StepRunsTheDecodedInstruction : Prop :=
  ∀ (s : State) (w : Record) (i : Instr), s.halt = false → s.image.records[s.pc.toNat]? = some w →
    decode w = .ok i → step s = exec i s

/-- From R73, R19 and R115: PC goes to a taken jump's target, stays at an HLT and at any instruction that
faults, and advances by exactly 1 after every other instruction. PC has 16 bits: at 65535, where no run of a
well-formed image executes (R67), the sum wraps, the model's choice (log entry 8). -/
def Obligations.PcAfterEveryInstruction : Prop :=
  ∀ (i : Instr) (s t : State), exec i s = .next t → t.pc = pcAfter i s

/-- Every well-formed instruction answers a next state in every state: the model stops on none (R72, R113).
The next state is the form's effect, or for PUSH, POP and PRINT the fault they raise; which of the two the
statements about each of them say. -/
def Obligations.EveryWellFormedInstructionAnswersANextState : Prop :=
  ∀ (i : Instr) (s : State), i.wf = true → ∃ t, exec i s = .next t

/-- From R120: the only way out of HALT = 1, or out of PC >= N, is reset. However many step requests follow,
a stopped core does not change: that each is answered by the same state is the model's reading of R9, R71
and I15 (log entry 7). A reset makes it run again from index 0 where it has a program (R130). -/
def Obligations.OnlyResetLeavesAStoppedCore : Prop :=
  ∀ s : State, (s.halt = true ∨ s.image.records.length ≤ s.pc.toNat) →
    (∀ n, Sys2Proof.core.run n s = .next s) ∧ cycle false true s = .next s ∧
    ∃ t, cycle true false s = .next t ∧ t.halt = false ∧ t.pc = 0 ∧
      (s.image.records ≠ [] → t.stopped = false)

/-- R71: in a legal state the core is stopped exactly in one of three ways: exhaustion, `HLT`, a fault;
and no two of them hold together. -/
def Obligations.ARunEndsInOneOfThreeWays : Prop :=
  ∀ s : State, s.Legal →
    (s.stopped = true ↔ s.Exhausted ∨ s.HaltedByHlt ∨ s.Faulted) ∧
    ¬ (s.Exhausted ∧ s.HaltedByHlt) ∧ ¬ (s.Exhausted ∧ s.Faulted) ∧ ¬ (s.HaltedByHlt ∧ s.Faulted)

/-! ### Reset (70_reset_and_hazards.md) -/

/-- R130: reset puts every piece of state to its value in the table of R29. Under `RESET_REGS = ZERO` A, R,
C and Z are 0; under DRAW the statement leaves them open. -/
def Obligations.ResetPutsEveryStateToItsResetValue : Prop :=
  ∀ s : State,
    s.applyReset.pc = 0 ∧ s.applyReset.sp = 511 ∧ s.applyReset.halt = false ∧ s.applyReset.fault = 0 ∧
    (∀ addr, s.applyReset.byte addr = 0) ∧ s.applyReset.out = [] ∧
    (s.params.resetRegs = .zero →
      s.applyReset.a = 0 ∧ (∀ n, s.applyReset.reg n = 0) ∧ s.applyReset.c = false ∧ s.applyReset.z = false)

/-- R131: reset does not change the instruction store, N, the template table or `IN_VALUE`, and no step
does; nor does either change the parameters of R7. -/
def Obligations.HostSuppliedStateIsConstant : Prop :=
  (∀ s : State, s.applyReset.image = s.image ∧ s.applyReset.inValue = s.inValue ∧ s.applyReset.params = s.params) ∧
  (∀ s t : State, step s = .next t → t.image = s.image ∧ t.inValue = s.inValue ∧ t.params = s.params)

/-- From R134 ("The core keeps no state from one run to the next"): under `RESET_REGS = ZERO`, what reset
leaves, the model's draw counter aside, depends only on what the host supplies. -/
def Obligations.ResetForgetsTheEarlierRun : Prop :=
  ∀ s t : State, s.params = t.params → s.image = t.image → s.inValue = t.inValue →
    s.params.resetRegs = .zero → { s.applyReset with draws := 0 } = { t.applyReset with draws := 0 }

/-! ### Faults (60_exceptions.md) -/

/-- R115: raising a fault sets HALT and FAULT and changes nothing else; PC stays, no event is emitted. And
whenever an instruction changes FAULT, it did just that, with a cause in 1 to 9. -/
def Obligations.FaultsArePrecise : Prop :=
  (∀ (k : FaultCause) (s : State), ∃ t, raise k s = .next t ∧
    t.halt = true ∧ t.fault = causeCode k ∧ t.pc = s.pc ∧ Frame .ofFault s t) ∧
  (∀ (i : Instr) (s t : State), exec i s = .next t → t.fault ≠ s.fault →
    t.halt = true ∧ 1 ≤ t.fault.toNat ∧ t.fault.toNat ≤ 9 ∧ t.pc = s.pc ∧ Frame .ofFault s t)

/-- R113: the FAULT record has tag 0x3F and its cause in v[3:0]; executing it raises the cause it holds,
which is 1 to 9. -/
def Obligations.FaultRecordRaisesItsCause : Prop :=
  (∀ c : BitVec 4, decode (0xFC000000 ||| c.setWidth 32) = .ok (.fault c)) ∧
  (∀ (c : BitVec 4) (s : State), 1 ≤ c.toNat → c.toNat ≤ 9 →
    ∃ t, exec (.fault c) s = .next t ∧ t.halt = true ∧ t.fault = c ∧ t.pc = s.pc ∧ Frame .ofFault s t)

/-- The model's choice (log entry 9): a FAULT record with a cause outside 1 to 9 is refused by name, since
rule R67 gives an image that holds one no run. -/
def Obligations.ReservedCauseIsRefused : Prop :=
  ∀ (c : BitVec 4) (s : State), (c = 0 ∨ 10 ≤ c.toNat) →
    exec (.fault c) s = .refused (.illFormedFaultRecord c)

/-! ### Transfer (41_transfer.md) -/

/-- NOP changes PC and nothing else (R76). -/
def Obligations.NopChangesOnlyPc : Prop :=
  ∀ s : State, ∃ t, exec .nop s = .next t ∧ t.pc = s.pc + 1 ∧ Frame {} s t

/-- LDA, LDI and MOV Rs, A put a cell, an immediate or a register into A and change nothing else but PC;
Z is not recomputed (R77, R81, R84). -/
def Obligations.LoadsIntoTheAccumulator : Prop :=
  ∀ (s : State) (i : Instr) (v : Byte),
    ((∃ addr, i = .lda addr ∧ v = s.byte addr) ∨ i = .ldi v ∨ (∃ n, i = .movRA n ∧ v = s.reg n)) →
    ∃ t, exec i s = .next t ∧ t.a = v ∧ t.pc = s.pc + 1 ∧ Frame { a := true } s t

/-- LDR, LDRI, MOV Rs, Rd and MOV A, Rd put a cell, an immediate, a register or A into one register and
change nothing else but PC (R79, R82, R83, R85). -/
def Obligations.LoadsIntoARegister : Prop :=
  ∀ (s : State) (i : Instr) (n : RegIndex) (v : Byte),
    ((∃ addr, i = .ldr n addr ∧ v = s.byte addr) ∨ i = .ldri n v ∨
      (∃ m, i = .movRR m n ∧ v = s.reg m) ∨ (i = .movAR n ∧ v = s.a)) →
    ∃ t, exec i s = .next t ∧ t.reg n = v ∧ t.pc = s.pc + 1 ∧ Frame { reg := some n } s t

/-- STA and STR store A or a register at their literal address: that byte reads back, every other byte
reads as before, and nothing else changes but PC (R78, R80). -/
def Obligations.StoresWriteExactlyOneByte : Prop :=
  ∀ (s : State) (i : Instr) (addr : Address) (v : Byte), Memory.wf s.mem = true →
    ((i = .sta addr ∧ v = s.a) ∨ (∃ n, i = .str n addr ∧ v = s.reg n)) →
    ∃ t, exec i s = .next t ∧ t.byte addr = v ∧ (∀ b, b ≠ addr → t.byte b = s.byte b) ∧
      t.pc = s.pc + 1 ∧ Frame { cell := some addr } s t

/-- §8 property 1 (95_test_vectors.md W1): LDRI Rr, v then MOV Rr, A leaves v in A. -/
def Obligations.LdriThenMovGivesTheValue : Prop :=
  ∀ (s : State) (n : RegIndex) (v : Byte), ∃ t, execAll [.ldri n v, .movRA n] s = .next t ∧
    t.a = v ∧ t.reg n = v ∧ Frame { a := true, reg := some n } s t

/-! ### ALU (42_alu.md) -/

/-- Both ADDs: the sum is taken without a width limit; up to 255 it is A; above, A is the sum less 256 under
MASK and less 255 under SUB255. C is (sum > 255), Z is (A' = 0) (R86, R87, R88). -/
def Obligations.AddResultCarryAndZero : Prop :=
  ∀ (s : State) (i : Instr) (v : Byte),
    ((∃ n, i = .addR n ∧ v = s.reg n) ∨ (∃ addr, i = .addM addr ∧ v = s.byte addr)) →
    ∃ t, exec i s = .next t ∧
      (s.a.toNat + v.toNat ≤ 255 → t.a.toNat = s.a.toNat + v.toNat) ∧
      (255 < s.a.toNat + v.toNat → s.params.addWrap = .mask → t.a.toNat + 256 = s.a.toNat + v.toNat) ∧
      (255 < s.a.toNat + v.toNat → s.params.addWrap = .sub255 → t.a.toNat + 255 = s.a.toNat + v.toNat) ∧
      t.c = decide (255 < s.a.toNat + v.toNat) ∧ t.z = decide (t.a = 0) ∧
      t.pc = s.pc + 1 ∧ Frame { a := true, c := true, z := true } s t

/-- SUB: the difference where it is not negative; otherwise modulo 256 under WRAP, and under DRAW the free
value of log entry 3, whatever it is. Z is (A' = 0) in each case and C is unchanged (R86, R89). -/
def Obligations.SubResultAndZero : Prop :=
  ∀ (s : State) (addr : Address), ∃ t, exec (.sub addr) s = .next t ∧
    ((s.byte addr).toNat ≤ s.a.toNat → t.a.toNat + (s.byte addr).toNat = s.a.toNat ∧ t.draws = s.draws) ∧
    (s.a.toNat < (s.byte addr).toNat → s.params.subUnderflow = .wrap →
      t.a.toNat + (s.byte addr).toNat = s.a.toNat + 256 ∧ t.draws = s.draws) ∧
    (s.a.toNat < (s.byte addr).toNat → s.params.subUnderflow = .draw →
      t.a = Config.drawByte s.draws ∧ t.draws = s.draws + 1) ∧
    t.z = decide (t.a = 0) ∧ t.pc = s.pc + 1 ∧ Frame { a := true, z := true, draws := true } s t

/-- AND, OR and XOR work bit by bit on A and a cell; Z is (A' = 0), C unchanged (R90, R91, R92). -/
def Obligations.LogicWorksBitByBit : Prop :=
  ∀ (s : State) (addr : Address),
    (∃ t, exec (.and addr) s = .next t ∧ (∀ k, t.a.getLsbD k = (s.a.getLsbD k && (s.byte addr).getLsbD k)) ∧
      t.z = decide (t.a = 0) ∧ t.pc = s.pc + 1 ∧ Frame { a := true, z := true } s t) ∧
    (∃ t, exec (.or addr) s = .next t ∧ (∀ k, t.a.getLsbD k = (s.a.getLsbD k || (s.byte addr).getLsbD k)) ∧
      t.z = decide (t.a = 0) ∧ t.pc = s.pc + 1 ∧ Frame { a := true, z := true } s t) ∧
    (∃ t, exec (.xor addr) s = .next t ∧ (∀ k, t.a.getLsbD k = (s.a.getLsbD k ^^ (s.byte addr).getLsbD k)) ∧
      t.z = decide (t.a = 0) ∧ t.pc = s.pc + 1 ∧ Frame { a := true, z := true } s t)

/-- NOT, INC and DEC in numbers: 255 - A; A + 1 or 0 at 255; A - 1 or 255 at 0. Z is (A' = 0), C unchanged
(R93, R94, R95). -/
def Obligations.UnaryArithmeticResults : Prop :=
  ∀ s : State,
    (∃ t, exec .not s = .next t ∧ t.a.toNat + s.a.toNat = 255 ∧
      t.z = decide (t.a = 0) ∧ t.pc = s.pc + 1 ∧ Frame { a := true, z := true } s t) ∧
    (∃ t, exec .inc s = .next t ∧ t.a.toNat = (if s.a.toNat = 255 then 0 else s.a.toNat + 1) ∧
      t.z = decide (t.a = 0) ∧ t.pc = s.pc + 1 ∧ Frame { a := true, z := true } s t) ∧
    (∃ t, exec .dec s = .next t ∧ t.a.toNat = (if s.a.toNat = 0 then 255 else s.a.toNat - 1) ∧
      t.z = decide (t.a = 0) ∧ t.pc = s.pc + 1 ∧ Frame { a := true, z := true } s t)

/-- ROL moves bit k to bit k + 1 and bit 7 to bit 0; ROR moves bit k + 1 to bit k and bit 0 to bit 7. Z is
(A' = 0), C unchanged (R96, R97). -/
def Obligations.RotatesMoveEveryBitByOne : Prop :=
  ∀ s : State,
    (∃ t, exec .rol s = .next t ∧ (∀ k, k < 8 → t.a.getLsbD ((k + 1) % 8) = s.a.getLsbD k) ∧
      t.z = decide (t.a = 0) ∧ t.pc = s.pc + 1 ∧ Frame { a := true, z := true } s t) ∧
    (∃ t, exec .ror s = .next t ∧ (∀ k, k < 8 → t.a.getLsbD k = s.a.getLsbD ((k + 1) % 8)) ∧
      t.z = decide (t.a = 0) ∧ t.pc = s.pc + 1 ∧ Frame { a := true, z := true } s t)

/-- §8 property 2 (W2): INC then DEC gives A back, and Z is (A = 0). -/
def Obligations.IncThenDecIsARoundTrip : Prop :=
  ∀ s : State, ∃ t, execAll [.inc, .dec] s = .next t ∧ t.a = s.a ∧ t.z = decide (s.a = 0) ∧
    Frame { z := true } s t

/-- §8 property 3 (W3): ROL then ROR, and ROR then ROL, give A back, with Z = (A = 0). -/
def Obligations.RotatesAreARoundTrip : Prop :=
  ∀ s : State,
    (∃ t, execAll [.rol, .ror] s = .next t ∧ t.a = s.a ∧ t.z = decide (s.a = 0) ∧ Frame { z := true } s t) ∧
    (∃ t, execAll [.ror, .rol] s = .next t ∧ t.a = s.a ∧ t.z = decide (s.a = 0) ∧ Frame { z := true } s t)

/-- R22, with the writers of R20: right after an instruction that writes Z, Z is (A = 0); every other
instruction, and any fault, leaves Z as it was, whatever it writes to A. -/
def Obligations.ZeroIsAboutTheLastFlagWriter : Prop :=
  ∀ (i : Instr) (s t : State), exec i s = .next t →
    (writesZero i = true → t.z = decide (t.a = 0)) ∧ (writesZero i = false → t.z = s.z)

/-- From R20's reader lists: changing C before an instruction that does not read C changes nothing but C
after it; the same for Z. PRINT is left out, since its event shows both flags. -/
def Obligations.FlagsAreReadOnlyByTheirJumps : Prop :=
  ∀ (i : Instr) (s t : State) (b : Bool), exec i s = .next t →
    (readsCarry i = false →
      exec i { s with c := b } = .next { t with c := if writesCarry i then t.c else b }) ∧
    (readsZero i = false →
      exec i { s with z := b } = .next { t with z := if writesZero i then t.z else b })

/-! ### Control (43_control.md) -/

/-- JMP always jumps; JZ, JNZ, JC and JNC jump where their flag holds the required value and fall through
otherwise; none writes anything but PC (R98, R100 to R104). -/
def Obligations.JumpsGoToTheirTarget : Prop :=
  ∀ (s : State) (target : Index),
    (∃ t, exec (.jmp target) s = .next t ∧ t.pc = target ∧ Frame {} s t) ∧
    (∃ t, exec (.jz target) s = .next t ∧ t.pc = (if s.z then target else s.pc + 1) ∧ Frame {} s t) ∧
    (∃ t, exec (.jnz target) s = .next t ∧ t.pc = (if s.z then s.pc + 1 else target) ∧ Frame {} s t) ∧
    (∃ t, exec (.jc target) s = .next t ∧ t.pc = (if s.c then target else s.pc + 1) ∧ Frame {} s t) ∧
    (∃ t, exec (.jnc target) s = .next t ∧ t.pc = (if s.c then s.pc + 1 else target) ∧ Frame {} s t)

/-! ### Stack, I/O and system (44_stack_io_system.md) -/

/-- PUSH with SP above 0 stores A at the old SP, leaves every other byte, and takes 1 from SP (R106). -/
def Obligations.PushStoresAtTheOldStackPointer : Prop :=
  ∀ s : State, Memory.wf s.mem = true → s.sp ≠ 0 →
    ∃ t, exec .push s = .next t ∧ t.byte s.pushAddress = s.a ∧
      (∀ b, b ≠ s.pushAddress → t.byte b = s.byte b) ∧ s.pushAddress = s.sp ∧
      t.sp.toNat + 1 = s.sp.toNat ∧ t.pc = s.pc + 1 ∧ Frame { cell := some s.pushAddress, sp := true } s t

/-- POP with SP below 511 adds 1 to SP and loads A from the new SP; Z is not recomputed (R107). -/
def Obligations.PopLoadsFromTheNewStackPointer : Prop :=
  ∀ s : State, s.sp ≠ 511 →
    ∃ t, exec .pop s = .next t ∧ t.sp.toNat = s.sp.toNat + 1 ∧ t.a = s.byte t.sp ∧
      t.pc = s.pc + 1 ∧ Frame { a := true, sp := true } s t

/-- PUSH at SP = 0 raises STACK_OVERFLOW and POP at SP = 511 raises STACK_UNDERFLOW, each with no other
change (R106, R107, R115). -/
def Obligations.StackEndsFault : Prop :=
  (∀ s : State, s.sp = 0 → ∃ t, exec .push s = .next t ∧ t.halt = true ∧ t.fault = 7 ∧ t.pc = s.pc ∧ Frame .ofFault s t) ∧
  (∀ s : State, s.sp = 511 → ∃ t, exec .pop s = .next t ∧ t.halt = true ∧ t.fault = 8 ∧ t.pc = s.pc ∧ Frame .ofFault s t)

/-- §8 property 5 (W5): PUSH then POP, for SP within bounds, leaves A and SP as they were, and the old SP's
cell holds A. -/
def Obligations.PushThenPopIsARoundTrip : Prop :=
  ∀ s : State, Memory.wf s.mem = true → s.sp ≠ 0 →
    ∃ t, execAll [.push, .pop] s = .next t ∧ t.a = s.a ∧ t.sp = s.sp ∧ t.byte s.sp = s.a ∧
      Frame { cell := some s.sp } s t

/-- From R137: from SP = 511, up to 511 pushes complete and the 512th faults STACK_OVERFLOW; after k pushes,
k pops bring SP back to 511 and one more faults STACK_UNDERFLOW. -/
def Obligations.StackHoldsAtMost511Bytes : Prop :=
  ∀ s : State, s.sp = 511 →
    (∀ k, k ≤ 511 → ∃ t, execAll (List.replicate k .push) s = .next t ∧
      t.sp.toNat + k = 511 ∧ t.halt = s.halt ∧ t.fault = s.fault) ∧
    (∃ t, execAll (List.replicate 512 .push) s = .next t ∧ t.sp = 0 ∧ t.halt = true ∧ t.fault = 7) ∧
    (∀ k, k ≤ 511 →
      (∃ t, execAll (List.replicate k .push ++ List.replicate k .pop) s = .next t ∧
        t.sp = 511 ∧ t.halt = s.halt ∧ t.fault = s.fault) ∧
      (∃ t, execAll (List.replicate k .push ++ List.replicate (k + 1) .pop) s = .next t ∧
        t.sp = 511 ∧ t.halt = true ∧ t.fault = 8))

/-- IN puts `IN_VALUE` into A and recomputes Z; C is unchanged (R108). -/
def Obligations.InReadsTheInputValue : Prop :=
  ∀ s : State, ∃ t, exec .inp s = .next t ∧ t.a = s.inValue ∧ t.z = decide (s.inValue = 0) ∧
    t.pc = s.pc + 1 ∧ Frame { a := true, z := true } s t

/-- OUT and OUT Rn append one event with A or the register, which `out_data` shows, and change nothing
else but PC (R109, R110). -/
def Obligations.OutAppendsOneEvent : Prop :=
  ∀ (s : State) (i : Instr) (v : Byte), ((i = .outA ∧ v = s.a) ∨ (∃ n, i = .outR n ∧ v = s.reg n)) →
    ∃ t, exec i s = .next t ∧ t.out = s.out ++ [.out v] ∧ outPort s t = some v ∧ printPort s t = none ∧
      t.pc = s.pc + 1 ∧ Frame { out := true } s t

/-- PRINT, where `print_check` is the default, appends Print(t, snap) with the state before the instruction,
and changes nothing else but PC (R105, R112). -/
def Obligations.PrintAppendsASnapshot : Prop :=
  ∀ (s : State) (template : Index), s.params.printCheck = .never →
    ∃ t, exec (.print template) s = .next t ∧ t.out = s.out ++ [.print template s.toArch] ∧
      printPort s t = some template ∧ outPort s t = none ∧ t.pc = s.pc + 1 ∧ Frame { out := true } s t

/-- PRINT, where the host supplies a `print_check` (the free predicate of log entry 4): it raises
PRINT_FAULT where the check reports a fault of the template and state, and prints otherwise (R112). -/
def Obligations.PrintCheckDecidesPrintFault : Prop :=
  ∀ (s : State) (template : Index), s.params.printCheck = .host →
    ∃ t, exec (.print template) s = .next t ∧
      if Config.printCheck s.image.templates[template.toNat]? s.toArch then
        t.halt = true ∧ t.fault = 9 ∧ t.pc = s.pc ∧ Frame .ofFault s t
      else
        t.out = s.out ++ [.print template s.toArch] ∧ t.pc = s.pc + 1 ∧ Frame { out := true } s t

/-- HLT sets HALT and changes nothing else, PC included (R111); after it the core is stopped (R71). That a
step request then answers the same state is the model's reading of R9, R71 and I15 (log entry 7). -/
def Obligations.HltHaltsInPlace : Prop :=
  ∀ s : State, ∃ t, exec .hlt s = .next t ∧ t.halt = true ∧ t.pc = s.pc ∧ Frame { halt := true } s t ∧
    t.stopped = true ∧ step t = .next t

/-! ### The whole machine -/

/-- What each instruction may write, by R15, R17, R20, R23, R24, R25 and R35, in one table (`writesOf`): it
changes nothing else but PC. In particular at most one byte of memory and one register change, and the
instruction store and the parameters never do. -/
def Obligations.FrameOfEveryInstruction : Prop :=
  ∀ (i : Instr) (s t : State), exec i s = .next t → Frame (writesOf i s) s t

/-- From R105: a step emits at most one event, appends it, and a step that faults emits none. -/
def Obligations.AtMostOneEventPerStep : Prop :=
  ∀ s t : State, step s = .next t →
    (t.out = s.out ∨ ∃ e, t.out = s.out ++ [e]) ∧ (t.fault ≠ s.fault → t.out = s.out)

/-- From R105 ("The core appends to it and never reads it"): with another event stream before it, an
instruction does the same to everything else and appends the same events. -/
def Obligations.OutputStreamIsNeverRead : Prop :=
  ∀ (i : Instr) (s t : State) (o : List Event), exec i s = .next t →
    exec i { s with out := o } = .next { t with out := o ++ t.out.drop s.out.length }

/-- Every step keeps a legal state legal: memory in its canonical form, a well-formed image, PC in 0..N
(R18), FAULT never reserved, and FAULT 0 unless HALT is 1 (R25). -/
def Obligations.EveryStepKeepsTheStateLegal : Prop :=
  ∀ s t : State, s.Legal → step s = .next t → t.Legal

/-- The reset state is legal. -/
def Obligations.ResetStateIsLegal : Prop := State.reset.Legal

/-- What boot releases from reset is legal, and it refuses exactly the ill-formed images (R67, R122, R132).
Which images are ill-formed is the model's reading, `Image.wf`: R67 with D28, I18 and I21, so that a
reserved word makes an image ill-formed (log entry 10), and so does a reserved cause (log entry 9). -/
def Obligations.BootGivesALegalState : Prop :=
  ∀ (p : Params) (v : Byte) (m : Image) (k : Nat),
    (∀ s, boot p v m k = some s → s.Legal ∧ s.image = m ∧ s.inValue = v ∧ s.params = p) ∧
    (boot p v m k = none ↔ m.wf = false)

/-- From R74 ("The engine always ends a run in a defined state"): from any well-formed image, under any
parameters, any number of step requests answers a next state, never a model fault or refusal, and
that state is legal. That a request after the end of the run still answers a next state is log entry 7. -/
def Obligations.EveryRunOfAWellFormedImageGoesOn : Prop :=
  ∀ (p : Params) (v : Byte) (m : Image) (k n : Nat) (s : State), boot p v m k = some s →
    ∃ t, Sys2Proof.core.run n s = .next t ∧ t.Legal

/-! ### Memory (20_memory.md) -/

/-- From R43: after reset and any writes, a byte reads as the last value written to it, or 0 where none was. -/
def Obligations.MemoryReadsTheLastWrite : Prop :=
  ∀ (s : State) (ws : List (Address × Byte)) (addr : Address),
    (ws.foldl (fun t w => t.setByte w.1 w.2) s.applyReset).byte addr =
      ((ws.reverse.find? fun w => w.1 == addr).map Prod.snd).getD 0

/-- The model's representation of R32: two memories in the canonical form that read alike are equal data. -/
def Obligations.MemoriesThatReadAlikeAreEqual : Prop :=
  ∀ m n : Memory, Memory.wf m = true → Memory.wf n = true →
    (∀ addr : Address, Memory.read m addr.toNat = Memory.read n addr.toNat) → m = n

/-! ### The loader (30_encoding.md) -/

/-- R58: every mnemonic but PRINT takes the operand counts of R60's table, OUT 0 or 1; any other count is
OPERAND_COUNT, and a right count never is. PRINT is not counted: its line always decodes. -/
def Obligations.OperandCountsAreFixed : Prop :=
  ∀ (labels : List (Text × Nat)) (l : Text) (m : Mnemonic), mnemonicOf (firstToken l) = some m →
    (∀ cs, operandCounts m = some cs →
      (decodeLine labels l = .error .operandCount ↔ (operandTokens l).length ∉ cs)) ∧
    (operandCounts m = none → decodeLine labels l = .ok (.print (printTemplate l)))

/-- R56: what an operand token becomes, with any leading zeros (R55). A register number up to 15 selects a
register, above raises REGISTER_RANGE; an address up to 511, decimal or hexadecimal with its digits in
either case, is itself, above raises ADDRESS_RANGE; an immediate is taken modulo 256; a label becomes its index or UNRESOLVED_LABEL. -/
def Obligations.OperandTokensBecomeTheirValues : Prop :=
  (∀ z n : Nat, registerOperand ('R' :: (List.replicate z '0' ++ Nat.toDigits 10 n)) =
    if n ≤ 15 then .ok (BitVec.ofNat 4 n) else .error .registerRange) ∧
  (∀ z n : Nat, addressOperand (List.replicate z '0' ++ Nat.toDigits 10 n) =
    if n ≤ 511 then .ok (BitVec.ofNat 9 n) else .error .addressRange) ∧
  (∀ (x : Char) (z n : Nat) (ds : Text), (x = 'x' ∨ x = 'X') →
    ds.map Char.toLower = List.replicate z '0' ++ Nat.toDigits 16 n →
    addressOperand ('0' :: x :: ds) = if n ≤ 511 then .ok (BitVec.ofNat 9 n) else .error .addressRange) ∧
  (∀ z n : Nat, immediateOperand (List.replicate z '0' ++ Nat.toDigits 10 n) = .ok (BitVec.ofNat 8 (n % 256))) ∧
  (∀ (labels : List (Text × Nat)) (t : Text),
    labelOperand labels t = match labels.lookup t with
      | some k => .ok (BitVec.ofNat 16 k)
      | none => .error .unresolvedLabel)

/-- From R66: the loader turns each line k of the Decoded Program into record k: a FAULT record with the line's
cause, or the line's instruction, or for a PRINT a record whose index finds its template. What a line of each
mnemonic decodes to is `EveryMnemonicDecodesToItsForm`; which sources have an image is
`LoadAnswersExactlyTheWellFormedSources`. -/
def Obligations.LoaderTranslatesEveryLine : Prop :=
  ∀ (source : Text) (m : Image), load source = .ok m →
    m.records.length = (scan source).program.length ∧
    ∀ (k : Nat) (l : Text), (scan source).program[k]? = some l →
      ∃ w, m.records[k]? = some w ∧
        match decodeLine (scan source).labels l with
        | .error c => decode w = .ok (.fault (causeCode c))
        | .ok (.instr i) => decode w = .ok i
        | .ok (.print text) => ∃ j : Index, decode w = .ok (.print j) ∧ m.templates[j.toNat]? = some text

/-- From R67 ("The loader of rule R66 produces only well-formed images"): every image the loader makes is
well-formed, and holds no reserved word. Which sources it makes an image of is
`LoadAnswersExactlyTheWellFormedSources`. -/
def Obligations.LoaderMakesOnlyWellFormedImages : Prop :=
  ∀ (source : Text) (m : Image), load source = .ok m → m.wf = true ∧ m.allDecode = true

/-- From R51, R52 and R53: a source has an image exactly where every label name is non-empty and holds no whitespace
(log entry 12), comma, colon or semicolon, no name is defined twice, and the program has at most 65535 lines.
Whatever its instruction lines are, the loader refuses it for nothing else (R52). -/
def Obligations.LoadAnswersExactlyTheWellFormedSources : Prop :=
  ∀ source : Text, (∃ m, load source = .ok m) ↔
    (∀ e ∈ (scan source).labels, e.1 ≠ [] ∧
      ∀ c ∈ e.1, isBlank c = false ∧ c ≠ ',' ∧ c ≠ ':' ∧ c ≠ ';') ∧
    ((scan source).labels.map Prod.fst).Nodup ∧ (scan source).program.length ≤ 65535

/-- From R49: what the first pass does with one more source line, which is whitespace, a text, whitespace and
perhaps a comment. An empty text does nothing; a print line, or a text with no colon, is one more line of
the program; any other text defines a label at the current index, and its remainder after the first
colon, where not empty, is one more line. -/
def Obligations.FirstPassTakesLineByLine : Prop :=
  scan [] = ⟨[], []⟩ ∧ (∀ line : Text, '\n' ∉ line → scan line = scan ('\n' :: line)) ∧
  ∀ source before text after comment : Text, '\n' ∉ before ++ text ++ after ++ comment →
    (∀ c ∈ before ++ after, isBlank c = true) → IsTrimmed text → ';' ∉ text →
    (∀ c ∈ comment.head?, c = ';') →
    (text = [] → scan (source ++ '\n' :: (before ++ text ++ after ++ comment)) = scan source) ∧
    (text ≠ [] → (foldCase (firstToken text) = "PRINT".toList ∨ ':' ∉ text) →
      scan (source ++ '\n' :: (before ++ text ++ after ++ comment)) =
        ⟨(scan source).program ++ [text], (scan source).labels⟩) ∧
    (∀ name rest : Text, text = name ++ ':' :: rest → ':' ∉ name → foldCase (firstToken text) ≠ "PRINT".toList →
      scan (source ++ '\n' :: (before ++ text ++ after ++ comment)) =
        ⟨(scan source).program ++ (if trim rest = [] then [] else [trim rest]),
          (scan source).labels ++ [(trim name, (scan source).program.length)]⟩)

/-- From R54: a line is an opcode token and operand tokens, with a run of one or more commas and whitespace
characters (log entry 12) before each operand token; separators at the end add nothing. -/
def Obligations.LinesAreSplitAtSeparatorRuns : Prop :=
  ∀ (opcode : Text) (operands : List (Text × Text)) (trailing : Text),
    (∀ c ∈ opcode, isBlank c = false ∧ c ≠ ',') → (∀ c ∈ trailing, isBlank c = true ∨ c = ',') →
    (∀ p ∈ operands, p.1 ≠ [] ∧ (∀ c ∈ p.1, isBlank c = true ∨ c = ',') ∧
      p.2 ≠ [] ∧ ∀ c ∈ p.2, isBlank c = false ∧ c ≠ ',') →
    firstToken (opcode ++ (operands.flatMap fun p => p.1 ++ p.2) ++ trailing) = opcode ∧
    operandTokens (opcode ++ (operands.flatMap fun p => p.1 ++ p.2) ++ trailing) = operands.map Prod.snd

/-- From R57 and R55: where a register is due, exactly the tokens that are no register token raise
OPERAND_SYNTAX; the same for an address literal and an immediate literal. A label token is any token. -/
def Obligations.WrongKindTokensRaiseOperandSyntax : Prop :=
  ∀ t : Text,
    (registerOperand t = .error .operandSyntax ↔ ¬ IsRegisterToken t) ∧
    (addressOperand t = .error .operandSyntax ↔ ¬ IsAddressLiteral t) ∧
    (immediateOperand t = .error .operandSyntax ↔ ¬ IsDecimal t) ∧
    ∀ labels, labelOperand labels t ≠ .error .operandSyntax

/-- From R60, R61 and R63: what a line of each mnemonic, in any case, decodes to with its number of operands.
Operands are checked from left to right, and the first that fails decides the fault; `MOV A, A` is
OPERAND_SYNTAX. A PRINT line keeps the text after the whitespace that follows the opcode token (R59). -/
def Obligations.EveryMnemonicDecodesToItsForm : Prop :=
  ∀ (labels : List (Text × Nat)) (l : Text) (name : String), foldCase (firstToken l) = name.toList →
    (∀ i, (name, i) ∈ [("NOP", Instr.nop), ("NOT", .not), ("INC", .inc), ("DEC", .dec), ("ROL", .rol), ("ROR", .ror),
        ("PUSH", .push), ("POP", .pop), ("IN", .inp), ("OUT", .outA), ("HLT", .hlt)] →
      operandTokens l = [] → decodeLine labels l = .ok (.instr i)) ∧
    (∀ mk t, (name, mk) ∈ [("LDA", Instr.lda), ("STA", .sta), ("SUB", .sub), ("AND", .and), ("OR", .or), ("XOR", .xor)] →
      operandTokens l = [t] → decodeLine labels l = (addressOperand t).map fun a => .instr (mk a)) ∧
    (∀ mk t u, (name, mk) ∈ [("LDR", Instr.ldr), ("STR", .str)] → operandTokens l = [t, u] →
      decodeLine labels l = (registerOperand t).bind fun n => (addressOperand u).map fun a => .instr (mk n a)) ∧
    (∀ t, name = "LDI" → operandTokens l = [t] →
      decodeLine labels l = (immediateOperand t).map fun v => .instr (.ldi v)) ∧
    (∀ t u, name = "LDRI" → operandTokens l = [t, u] →
      decodeLine labels l = (registerOperand t).bind fun n => (immediateOperand u).map fun v => .instr (.ldri n v)) ∧
    (∀ mk t, (name, mk) ∈ [("JMP", Instr.jmp), ("JZ", .jz), ("JNZ", .jnz), ("JC", .jc), ("JNC", .jnc)] →
      operandTokens l = [t] → decodeLine labels l = (labelOperand labels t).map fun k => .instr (mk k)) ∧
    (∀ t, name = "ADD" → operandTokens l = [t] →
      (IsRegisterToken t → decodeLine labels l = (registerOperand t).map fun n => .instr (.addR n)) ∧
      (¬ IsRegisterToken t → decodeLine labels l = (addressOperand t).map fun a => .instr (.addM a))) ∧
    (∀ t u, name = "MOV" → operandTokens l = [t, u] →
      (t ≠ ['A'] → u ≠ ['A'] → decodeLine labels l =
        (registerOperand t).bind fun n => (registerOperand u).map fun m => .instr (.movRR n m)) ∧
      (t ≠ ['A'] → u = ['A'] → decodeLine labels l = (registerOperand t).map fun n => .instr (.movRA n)) ∧
      (t = ['A'] → u ≠ ['A'] → decodeLine labels l = (registerOperand u).map fun m => .instr (.movAR m)) ∧
      (t = ['A'] → u = ['A'] → decodeLine labels l = .error .operandSyntax)) ∧
    (∀ t, name = "OUT" → operandTokens l = [t] →
      decodeLine labels l = (registerOperand t).map fun n => .instr (.outR n)) ∧
    (name = "PRINT" → ∃ template before after : Text, decodeLine labels l = .ok (.print template) ∧
      l = firstToken l ++ before ++ template ++ after ∧ (∀ c ∈ before ++ after, isBlank c = true) ∧ IsTrimmed template)

/-- From R67 with D28, I20 and I21 (log entries 9 and 10): boot gives no run to exactly the images with more
than 65535 records, or with a record that matches no row of the table, a jump beyond N, a FAULT record
with a cause outside 1 to 9, or a PRINT record with no template. -/
def Obligations.BootRefusesExactlyTheIllFormedImages : Prop :=
  ∀ (p : Params) (v : Byte) (m : Image) (k : Nat), boot p v m k = none ↔
    65535 < m.records.length ∨ ∃ w ∈ m.records,
      (∀ r ∈ opcodeTable, r.matchesWord w = false) ∨
      (∃ target : Index, m.records.length < target.toNat ∧
        ∃ mk ∈ [Instr.jmp, Instr.jz, Instr.jnz, Instr.jc, Instr.jnc], decode w = .ok (mk target)) ∨
      (∃ c : BitVec 4, (c = 0 ∨ 10 ≤ c.toNat) ∧ decode w = .ok (.fault c)) ∨
      (∃ template : Index, m.templates.length ≤ template.toNat ∧ decode w = .ok (.print template))
end

