-- ==== Sys2Proof/Laws/Decode.lean ====
section
/-!
SUPPORT. The layout of a record (30_encoding.md rule R64) is a bijection between words and fields, and
`Fields.require` answers one instruction or none.
-/

namespace Sys2Proof

/-- Taking a record apart gives back the fields it was put together from. -/
@[simp] theorem Fields.ofWord_toWord (f : Fields) : Fields.ofWord f.toWord = f := by
  obtain ⟨tag, ra, rb, zero, v⟩ := f
  simp only [Fields.ofWord, Fields.toWord, Fields.mk.injEq]
  refine ⟨?_, ?_, ?_, ?_, ?_⟩ <;>
  · apply BitVec.eq_of_getLsbD_eq
    intro i hi
    simp only [BitVec.getLsbD_extractLsb', BitVec.getLsbD_append, hi, decide_true, Bool.true_and]
    repeat' split
    all_goals first | omega | (congr 1; omega)

/-- Putting the fields of a record together gives back the record. -/
@[simp] theorem Fields.toWord_ofWord (w : Record) : (Fields.ofWord w).toWord = w := by
  apply BitVec.eq_of_getLsbD_eq
  intro i hi
  simp only [Fields.ofWord, Fields.toWord, BitVec.getLsbD_append, BitVec.getLsbD_extractLsb']
  repeat' split
  all_goals
    rw [decide_eq_true (by omega), Bool.true_and]
    congr 1
    omega

/-- The fields of an encoded instruction. -/
@[simp] theorem ofWord_encode (i : Instr) : Fields.ofWord (encode i) = encodeFields i :=
  Fields.ofWord_toWord _

/-- Decoding an encoded instruction is decoding its fields. -/
theorem decode_encode_eq (i : Instr) : decode (encode i) = decodeFields (encodeFields i) := by
  rw [decode, ofWord_encode]

/-- `require` answers the instruction it is given, and only where the unused fields are 0. -/
theorem Fields.require_eq_ok {f : Fields} {b : Bool} {i j : Instr} :
    f.require b i = .ok j ↔ b = true ∧ i = j := by
  unfold Fields.require
  split <;> simp_all

end Sys2Proof
end

