-- ==== Sys2Proof/Laws/Load.lean ====
section
/-!
SUPPORT. What a well-formed image is (30_encoding.md rule R67 with decision D28), and what boot answers,
each said once.
-/

namespace Sys2Proof.Machine

/-- A word is a legal record exactly where it decodes. -/
theorem isLegalRecord_iff {w : Record} : isLegalRecord w = true ↔ ∃ i, decode w = .ok i := by
  unfold isLegalRecord
  cases decode w <;> simp

/-- A record is well-formed exactly where it holds a well-formed instruction that fits the image. -/
theorem recordWf_iff {n t : Nat} {w : Record} :
    recordWf n t w = true ↔ ∃ i, decode w = .ok i ∧ i.wf = true ∧ i.fits n t = true := by
  unfold recordWf
  cases decode w <;> simp

/-- An image is well-formed exactly where it has at most 65535 records and each holds a well-formed
instruction that fits it. -/
theorem Image.wf_iff {m : Image} :
    m.wf = true ↔ m.records.length ≤ 65535 ∧ ∀ w ∈ m.records, ∃ i,
      decode w = .ok i ∧ i.wf = true ∧ i.fits m.records.length m.templates.length = true := by
  simp only [Image.wf, Image.allDecode, Bool.and_eq_true, List.all_eq_true, decide_eq_true_eq,
    isLegalRecord_iff, recordWf_iff]
  refine ⟨fun h => ⟨h.1.1, h.2⟩, fun h => ⟨⟨h.1, fun w hw => ?_⟩, h.2⟩⟩
  obtain ⟨i, hi, -⟩ := h.2 w hw
  exact ⟨i, hi⟩

/-- A well-formed image holds no reserved word. -/
theorem Image.allDecode_of_wf {m : Image} (h : m.wf = true) : m.allDecode = true := by
  simp only [Image.wf, Bool.and_eq_true] at h
  exact h.1.2

/-- Boot releases the presented state of a well-formed image. -/
theorem boot_eq_some {p : Params} {v : Byte} {m : Image} {k : Nat} {s : State} :
    boot p v m k = some s ↔ m.wf = true ∧ presented p v m k = s := by
  simp [boot]

/-- Boot refuses an image exactly where it is ill-formed. -/
theorem boot_eq_none {p : Params} {v : Byte} {m : Image} {k : Nat} :
    boot p v m k = none ↔ m.wf = false := by
  simp [boot]

end Sys2Proof.Machine
end

