-- ==== Sys2Proof/Laws/Loader.lean ====
section
/-!
SUPPORT. The loader's functions, each said once: the first pass over one more line (30_encoding.md rule
R49), when a token is a number (R55), and the forms with one and with two operands (R58, R63).
-/

namespace Sys2Proof.Machine

/-! ### Lines and labels -/

@[simp] theorem splitLines_nil : splitLines [] = [[]] := rfl

theorem splitLines_ne_nil (source : Text) : splitLines source ≠ [] := by
  cases source with
  | nil => simp
  | cons c cs => simp only [splitLines]; split <;> (try split) <;> simp

/-- A text without LF is one line. -/
theorem splitLines_of_no_newline {line : Text} (h : '\n' ∉ line) : splitLines line = [line] := by
  induction line with
  | nil => rfl
  | cons c cs ih =>
    simp only [List.mem_cons, not_or] at h
    simp [splitLines, ih h.2, Ne.symm h.1]

/-- One more line after an LF. -/
theorem splitLines_append_newline (source : Text) {line : Text} (h : '\n' ∉ line) :
    splitLines (source ++ '\n' :: line) = splitLines source ++ [line] := by
  induction source with
  | nil => simp [splitLines, splitLines_of_no_newline h]
  | cons c cs ih =>
    simp only [List.cons_append, splitLines, ih]
    split
    · simp
    · cases hs : splitLines cs with
      | nil => exact absurd hs (splitLines_ne_nil cs)
      | cons l ls => simp

/-- The first pass takes one more line (R49). -/
theorem scan_append_newline (source : Text) {line : Text} (h : '\n' ∉ line) :
    scan (source ++ '\n' :: line) = scanLine (scan source) line := by
  simp [scan, splitLines_append_newline source h]

/-- No name is defined twice (R51). -/
theorem namesDistinct_iff {ns : List Text} : namesDistinct ns = true ↔ ns.Nodup := by
  induction ns with
  | nil => simp [namesDistinct]
  | cons n ns ih => simp [namesDistinct, ih]

/-! ### Numbers -/

theorem digitsFrom_isSome {base acc : Nat} {t : Text} :
    (digitsFrom base acc t).isSome = true ↔ ∀ c ∈ t, (digitValue base c).isSome = true := by
  induction t generalizing acc with
  | nil => simp [digitsFrom]
  | cons c cs ih =>
    simp only [digitsFrom]
    cases h : digitValue base c with
    | none => simp [h]
    | some d => simp [h, ih]

/-- A text is a number exactly where it has one or more digits and nothing else (R55). -/
theorem digits_isSome {base : Nat} {t : Text} :
    (digits base t).isSome = true ↔ t ≠ [] ∧ ∀ c ∈ t, (digitValue base c).isSome = true := by
  unfold digits
  cases t with
  | nil => simp
  | cons c cs => simp only [List.isEmpty_cons, Bool.false_eq_true, if_false, digitsFrom_isSome]; simp

/-! ### Operands -/

@[simp] theorem noOperand_nil (i : Instr) : noOperand i [] = .ok (.instr i) := rfl

/-- One operand: its fault, or the instruction with its value. -/
@[simp] theorem oneOperand_singleton {α : Type} (f : Text → Except FaultCause α) (mk : α → Instr) (t : Text) :
    oneOperand f mk [t] = (f t).map fun x => .instr (mk x) := by
  cases h : f t <;> simp [oneOperand, h, Except.map]

/-- Two operands: the first fault from left to right, or the instruction with their values (R63). -/
@[simp] theorem twoOperands_pair {α β : Type} (f : Text → Except FaultCause α) (g : Text → Except FaultCause β)
    (mk : α → β → Instr) (t u : Text) :
    twoOperands f g mk [t, u] = (f t).bind fun x => (g u).map fun y => .instr (mk x y) := by
  cases hf : f t <;> cases hg : g u <;> simp [twoOperands, hf, hg, Except.bind, Except.map]

/-- A line whose first token is a mnemonic decodes by that mnemonic's operands. -/
theorem decodeLine_of_mnemonic (labels : List (Text × Nat)) {l : Text} {m : Mnemonic}
    (h : mnemonicOf (firstToken l) = some m) :
    decodeLine labels l = decodeOperands labels l (operandTokens l) m := by
  simp only [decodeLine, h]

end Sys2Proof.Machine
end

