-- ==== Sys2Proof/Laws/Memory.lean ====
section
/-!
SUPPORT. The laws of data memory: a write is read back, leaves every other address alone, and keeps the
canonical form, in which equal memories are equal lists.
-/

namespace Sys2Proof.Machine

@[simp] theorem Memory.read_nil (a : Nat) : Memory.read [] a = unlistedByte := rfl

theorem Memory.read_cons (b : Nat) (w : Byte) (m : Memory) (a : Nat) :
    Memory.read ((b, w) :: m) a = if b = a then w else Memory.read m a := rfl

@[simp] theorem Memory.wf_nil : Memory.wf [] = true := rfl

theorem Memory.risingFrom_cons {lo b : Nat} {w : Byte} {m : Memory} :
    Memory.risingFrom lo ((b, w) :: m) = true ↔
      lo ≤ b ∧ b < memSize ∧ w ≠ unlistedByte ∧ Memory.risingFrom (b + 1) m = true := by
  simp [Memory.risingFrom, and_assoc]

/-- A memory that rises from one bound rises from a lower one. -/
theorem Memory.risingFrom_mono {lo lo' : Nat} {m : Memory} (h : Memory.risingFrom lo m = true) (hl : lo' ≤ lo) :
    Memory.risingFrom lo' m = true := by
  cases m with
  | nil => rfl
  | cons e m =>
    obtain ⟨b, w⟩ := e
    rw [Memory.risingFrom_cons] at h ⊢
    exact ⟨by omega, h.2⟩

/-- Below the bound a memory lists nothing. -/
theorem Memory.read_below {lo a : Nat} {m : Memory} (h : Memory.risingFrom lo m = true) (ha : a < lo) :
    Memory.read m a = unlistedByte := by
  induction m generalizing lo with
  | nil => rfl
  | cons e m ih =>
    obtain ⟨b, w⟩ := e
    rw [Memory.risingFrom_cons] at h
    rw [Memory.read_cons, if_neg (by omega)]
    exact ih h.2.2.2 (by omega)

theorem Memory.risingFrom_consCell {lo a : Nat} {v : Byte} {m : Memory} (hlo : lo ≤ a) (ha : a < memSize)
    (h : Memory.risingFrom (a + 1) m = true) : Memory.risingFrom lo (Memory.consCell a v m) = true := by
  unfold Memory.consCell
  split
  · exact Memory.risingFrom_mono h (by omega)
  · rename_i hv
    exact Memory.risingFrom_cons.2 ⟨hlo, ha, hv, h⟩

theorem Memory.write_risingFrom {lo a : Nat} {v : Byte} {m : Memory} (h : Memory.risingFrom lo m = true)
    (hlo : lo ≤ a) (ha : a < memSize) : Memory.risingFrom lo (Memory.write m a v) = true := by
  induction m generalizing lo with
  | nil => exact Memory.risingFrom_consCell hlo ha rfl
  | cons e m ih =>
    obtain ⟨b, w⟩ := e
    have h' := Memory.risingFrom_cons.1 h
    unfold Memory.write
    split
    · exact Memory.risingFrom_consCell hlo ha (Memory.risingFrom_cons.2 ⟨by omega, h'.2⟩)
    · split
      · exact Memory.risingFrom_consCell hlo ha (by subst_vars; exact h'.2.2.2)
      · exact Memory.risingFrom_cons.2 ⟨h'.1, h'.2.1, h'.2.2.1, ih h'.2.2.2 (by omega)⟩

/-- A write to an address of the space keeps the canonical form. -/
theorem Memory.write_wf {a : Nat} {v : Byte} {m : Memory} (h : Memory.wf m = true) (ha : a < memSize) :
    Memory.wf (Memory.write m a v) = true :=
  Memory.write_risingFrom h (Nat.zero_le a) ha

theorem Memory.read_consCell {a : Nat} {v : Byte} {m : Memory} (h : Memory.read m a = unlistedByte) (b : Nat) :
    Memory.read (Memory.consCell a v m) b = if a = b then v else Memory.read m b := by
  unfold Memory.consCell
  split
  · rename_i hv
    split
    · subst_vars; exact h
    · rfl
  · rfl

/-- What a memory in the canonical form reads as after a write. -/
theorem Memory.read_write {a : Nat} {v : Byte} {m : Memory} (h : Memory.wf m = true) (b : Nat) :
    Memory.read (Memory.write m a v) b = if a = b then v else Memory.read m b := by
  suffices ∀ lo, Memory.risingFrom lo m = true →
      Memory.read (Memory.write m a v) b = if a = b then v else Memory.read m b from this 0 h
  clear h
  induction m with
  | nil =>
    intro lo _
    exact Memory.read_consCell rfl b
  | cons e m ih =>
    intro lo h
    obtain ⟨c, w⟩ := e
    have h' := Memory.risingFrom_cons.1 h
    unfold Memory.write
    split
    · exact Memory.read_consCell (Memory.read_below (Memory.risingFrom_cons.2 ⟨Nat.le_refl c, h'.2⟩) (by omega)) b
    · split
      · subst_vars
        rw [Memory.read_consCell (Memory.read_below h'.2.2.2 (by omega)), Memory.read_cons]
        split <;> simp_all
      · rw [Memory.read_cons, Memory.read_cons, ih (c + 1) h'.2.2.2]
        split <;> split <;> first | rfl | omega

theorem Memory.read_consCell_ne {a b : Nat} (h : a ≠ b) (v : Byte) (m : Memory) :
    Memory.read (Memory.consCell a v m) b = Memory.read m b := by
  unfold Memory.consCell
  split
  · rfl
  · rw [Memory.read_cons, if_neg h]

/-- A write leaves every other address alone, in any memory. -/
theorem Memory.read_write_ne {a b : Nat} (h : a ≠ b) (v : Byte) (m : Memory) :
    Memory.read (Memory.write m a v) b = Memory.read m b := by
  induction m with
  | nil => exact Memory.read_consCell_ne h v []
  | cons e m ih =>
    obtain ⟨c, w⟩ := e
    unfold Memory.write
    split
    · exact Memory.read_consCell_ne h v _
    · split
      · subst_vars
        rw [Memory.read_consCell_ne h, Memory.read_cons, if_neg h]
      · rw [Memory.read_cons, Memory.read_cons, ih]

end Sys2Proof.Machine
end

