-- ==== Sys2Proof/Laws/State.lean ====
section
/-!
SUPPORT. One lemma per field per update of the state, each true by rfl, so that no proof unfolds a
record update; and what the two readers (a register, a byte of memory) give after each update.
-/

namespace Sys2Proof.Machine

variable (s : State)

/-! ### setReg -/

@[simp] theorem State.setReg_a (n : RegIndex) (v : Byte) : (s.setReg n v).a = s.a := rfl
@[simp] theorem State.setReg_regs (n : RegIndex) (v : Byte) : (s.setReg n v).regs = s.regs.set n.toNat v n.isLt := rfl
@[simp] theorem State.setReg_c (n : RegIndex) (v : Byte) : (s.setReg n v).c = s.c := rfl
@[simp] theorem State.setReg_z (n : RegIndex) (v : Byte) : (s.setReg n v).z = s.z := rfl
@[simp] theorem State.setReg_pc (n : RegIndex) (v : Byte) : (s.setReg n v).pc = s.pc := rfl
@[simp] theorem State.setReg_sp (n : RegIndex) (v : Byte) : (s.setReg n v).sp = s.sp := rfl
@[simp] theorem State.setReg_halt (n : RegIndex) (v : Byte) : (s.setReg n v).halt = s.halt := rfl
@[simp] theorem State.setReg_fault (n : RegIndex) (v : Byte) : (s.setReg n v).fault = s.fault := rfl
@[simp] theorem State.setReg_mem (n : RegIndex) (v : Byte) : (s.setReg n v).mem = s.mem := rfl
@[simp] theorem State.setReg_image (n : RegIndex) (v : Byte) : (s.setReg n v).image = s.image := rfl
@[simp] theorem State.setReg_inValue (n : RegIndex) (v : Byte) : (s.setReg n v).inValue = s.inValue := rfl
@[simp] theorem State.setReg_params (n : RegIndex) (v : Byte) : (s.setReg n v).params = s.params := rfl
@[simp] theorem State.setReg_out (n : RegIndex) (v : Byte) : (s.setReg n v).out = s.out := rfl
@[simp] theorem State.setReg_draws (n : RegIndex) (v : Byte) : (s.setReg n v).draws = s.draws := rfl
@[simp] theorem State.setReg_byte (n : RegIndex) (v : Byte) (b0 : Address) : (s.setReg n v).byte b0 = s.byte b0 := rfl

/-! ### setByte -/

@[simp] theorem State.setByte_a (addr : Address) (v : Byte) : (s.setByte addr v).a = s.a := rfl
@[simp] theorem State.setByte_regs (addr : Address) (v : Byte) : (s.setByte addr v).regs = s.regs := rfl
@[simp] theorem State.setByte_c (addr : Address) (v : Byte) : (s.setByte addr v).c = s.c := rfl
@[simp] theorem State.setByte_z (addr : Address) (v : Byte) : (s.setByte addr v).z = s.z := rfl
@[simp] theorem State.setByte_pc (addr : Address) (v : Byte) : (s.setByte addr v).pc = s.pc := rfl
@[simp] theorem State.setByte_sp (addr : Address) (v : Byte) : (s.setByte addr v).sp = s.sp := rfl
@[simp] theorem State.setByte_halt (addr : Address) (v : Byte) : (s.setByte addr v).halt = s.halt := rfl
@[simp] theorem State.setByte_fault (addr : Address) (v : Byte) : (s.setByte addr v).fault = s.fault := rfl
@[simp] theorem State.setByte_mem (addr : Address) (v : Byte) : (s.setByte addr v).mem = Memory.write s.mem addr.toNat v := rfl
@[simp] theorem State.setByte_image (addr : Address) (v : Byte) : (s.setByte addr v).image = s.image := rfl
@[simp] theorem State.setByte_inValue (addr : Address) (v : Byte) : (s.setByte addr v).inValue = s.inValue := rfl
@[simp] theorem State.setByte_params (addr : Address) (v : Byte) : (s.setByte addr v).params = s.params := rfl
@[simp] theorem State.setByte_out (addr : Address) (v : Byte) : (s.setByte addr v).out = s.out := rfl
@[simp] theorem State.setByte_draws (addr : Address) (v : Byte) : (s.setByte addr v).draws = s.draws := rfl
@[simp] theorem State.setByte_reg (addr : Address) (v : Byte) (m : RegIndex) : (s.setByte addr v).reg m = s.reg m := rfl

/-! ### setA -/

@[simp] theorem State.setA_a (v : Byte) : (s.setA v).a = v := rfl
@[simp] theorem State.setA_regs (v : Byte) : (s.setA v).regs = s.regs := rfl
@[simp] theorem State.setA_c (v : Byte) : (s.setA v).c = s.c := rfl
@[simp] theorem State.setA_z (v : Byte) : (s.setA v).z = s.z := rfl
@[simp] theorem State.setA_pc (v : Byte) : (s.setA v).pc = s.pc := rfl
@[simp] theorem State.setA_sp (v : Byte) : (s.setA v).sp = s.sp := rfl
@[simp] theorem State.setA_halt (v : Byte) : (s.setA v).halt = s.halt := rfl
@[simp] theorem State.setA_fault (v : Byte) : (s.setA v).fault = s.fault := rfl
@[simp] theorem State.setA_mem (v : Byte) : (s.setA v).mem = s.mem := rfl
@[simp] theorem State.setA_image (v : Byte) : (s.setA v).image = s.image := rfl
@[simp] theorem State.setA_inValue (v : Byte) : (s.setA v).inValue = s.inValue := rfl
@[simp] theorem State.setA_params (v : Byte) : (s.setA v).params = s.params := rfl
@[simp] theorem State.setA_out (v : Byte) : (s.setA v).out = s.out := rfl
@[simp] theorem State.setA_draws (v : Byte) : (s.setA v).draws = s.draws := rfl
@[simp] theorem State.setA_reg (v : Byte) (m : RegIndex) : (s.setA v).reg m = s.reg m := rfl
@[simp] theorem State.setA_byte (v : Byte) (b0 : Address) : (s.setA v).byte b0 = s.byte b0 := rfl

/-! ### setC -/

@[simp] theorem State.setC_a (b : Bool) : (s.setC b).a = s.a := rfl
@[simp] theorem State.setC_regs (b : Bool) : (s.setC b).regs = s.regs := rfl
@[simp] theorem State.setC_c (b : Bool) : (s.setC b).c = b := rfl
@[simp] theorem State.setC_z (b : Bool) : (s.setC b).z = s.z := rfl
@[simp] theorem State.setC_pc (b : Bool) : (s.setC b).pc = s.pc := rfl
@[simp] theorem State.setC_sp (b : Bool) : (s.setC b).sp = s.sp := rfl
@[simp] theorem State.setC_halt (b : Bool) : (s.setC b).halt = s.halt := rfl
@[simp] theorem State.setC_fault (b : Bool) : (s.setC b).fault = s.fault := rfl
@[simp] theorem State.setC_mem (b : Bool) : (s.setC b).mem = s.mem := rfl
@[simp] theorem State.setC_image (b : Bool) : (s.setC b).image = s.image := rfl
@[simp] theorem State.setC_inValue (b : Bool) : (s.setC b).inValue = s.inValue := rfl
@[simp] theorem State.setC_params (b : Bool) : (s.setC b).params = s.params := rfl
@[simp] theorem State.setC_out (b : Bool) : (s.setC b).out = s.out := rfl
@[simp] theorem State.setC_draws (b : Bool) : (s.setC b).draws = s.draws := rfl
@[simp] theorem State.setC_reg (b : Bool) (m : RegIndex) : (s.setC b).reg m = s.reg m := rfl
@[simp] theorem State.setC_byte (b : Bool) (b0 : Address) : (s.setC b).byte b0 = s.byte b0 := rfl

/-! ### setZ -/

@[simp] theorem State.setZ_a (b : Bool) : (s.setZ b).a = s.a := rfl
@[simp] theorem State.setZ_regs (b : Bool) : (s.setZ b).regs = s.regs := rfl
@[simp] theorem State.setZ_c (b : Bool) : (s.setZ b).c = s.c := rfl
@[simp] theorem State.setZ_z (b : Bool) : (s.setZ b).z = b := rfl
@[simp] theorem State.setZ_pc (b : Bool) : (s.setZ b).pc = s.pc := rfl
@[simp] theorem State.setZ_sp (b : Bool) : (s.setZ b).sp = s.sp := rfl
@[simp] theorem State.setZ_halt (b : Bool) : (s.setZ b).halt = s.halt := rfl
@[simp] theorem State.setZ_fault (b : Bool) : (s.setZ b).fault = s.fault := rfl
@[simp] theorem State.setZ_mem (b : Bool) : (s.setZ b).mem = s.mem := rfl
@[simp] theorem State.setZ_image (b : Bool) : (s.setZ b).image = s.image := rfl
@[simp] theorem State.setZ_inValue (b : Bool) : (s.setZ b).inValue = s.inValue := rfl
@[simp] theorem State.setZ_params (b : Bool) : (s.setZ b).params = s.params := rfl
@[simp] theorem State.setZ_out (b : Bool) : (s.setZ b).out = s.out := rfl
@[simp] theorem State.setZ_draws (b : Bool) : (s.setZ b).draws = s.draws := rfl
@[simp] theorem State.setZ_reg (b : Bool) (m : RegIndex) : (s.setZ b).reg m = s.reg m := rfl
@[simp] theorem State.setZ_byte (b : Bool) (b0 : Address) : (s.setZ b).byte b0 = s.byte b0 := rfl

/-! ### setSp -/

@[simp] theorem State.setSp_a (addr : Address) : (s.setSp addr).a = s.a := rfl
@[simp] theorem State.setSp_regs (addr : Address) : (s.setSp addr).regs = s.regs := rfl
@[simp] theorem State.setSp_c (addr : Address) : (s.setSp addr).c = s.c := rfl
@[simp] theorem State.setSp_z (addr : Address) : (s.setSp addr).z = s.z := rfl
@[simp] theorem State.setSp_pc (addr : Address) : (s.setSp addr).pc = s.pc := rfl
@[simp] theorem State.setSp_sp (addr : Address) : (s.setSp addr).sp = addr := rfl
@[simp] theorem State.setSp_halt (addr : Address) : (s.setSp addr).halt = s.halt := rfl
@[simp] theorem State.setSp_fault (addr : Address) : (s.setSp addr).fault = s.fault := rfl
@[simp] theorem State.setSp_mem (addr : Address) : (s.setSp addr).mem = s.mem := rfl
@[simp] theorem State.setSp_image (addr : Address) : (s.setSp addr).image = s.image := rfl
@[simp] theorem State.setSp_inValue (addr : Address) : (s.setSp addr).inValue = s.inValue := rfl
@[simp] theorem State.setSp_params (addr : Address) : (s.setSp addr).params = s.params := rfl
@[simp] theorem State.setSp_out (addr : Address) : (s.setSp addr).out = s.out := rfl
@[simp] theorem State.setSp_draws (addr : Address) : (s.setSp addr).draws = s.draws := rfl
@[simp] theorem State.setSp_reg (addr : Address) (m : RegIndex) : (s.setSp addr).reg m = s.reg m := rfl
@[simp] theorem State.setSp_byte (addr : Address) (b0 : Address) : (s.setSp addr).byte b0 = s.byte b0 := rfl

/-! ### setPc -/

@[simp] theorem State.setPc_a (target : Index) : (s.setPc target).a = s.a := rfl
@[simp] theorem State.setPc_regs (target : Index) : (s.setPc target).regs = s.regs := rfl
@[simp] theorem State.setPc_c (target : Index) : (s.setPc target).c = s.c := rfl
@[simp] theorem State.setPc_z (target : Index) : (s.setPc target).z = s.z := rfl
@[simp] theorem State.setPc_pc (target : Index) : (s.setPc target).pc = target := rfl
@[simp] theorem State.setPc_sp (target : Index) : (s.setPc target).sp = s.sp := rfl
@[simp] theorem State.setPc_halt (target : Index) : (s.setPc target).halt = s.halt := rfl
@[simp] theorem State.setPc_fault (target : Index) : (s.setPc target).fault = s.fault := rfl
@[simp] theorem State.setPc_mem (target : Index) : (s.setPc target).mem = s.mem := rfl
@[simp] theorem State.setPc_image (target : Index) : (s.setPc target).image = s.image := rfl
@[simp] theorem State.setPc_inValue (target : Index) : (s.setPc target).inValue = s.inValue := rfl
@[simp] theorem State.setPc_params (target : Index) : (s.setPc target).params = s.params := rfl
@[simp] theorem State.setPc_out (target : Index) : (s.setPc target).out = s.out := rfl
@[simp] theorem State.setPc_draws (target : Index) : (s.setPc target).draws = s.draws := rfl
@[simp] theorem State.setPc_reg (target : Index) (m : RegIndex) : (s.setPc target).reg m = s.reg m := rfl
@[simp] theorem State.setPc_byte (target : Index) (b0 : Address) : (s.setPc target).byte b0 = s.byte b0 := rfl

/-! ### setHalt -/

@[simp] theorem State.setHalt_a : (s.setHalt).a = s.a := rfl
@[simp] theorem State.setHalt_regs : (s.setHalt).regs = s.regs := rfl
@[simp] theorem State.setHalt_c : (s.setHalt).c = s.c := rfl
@[simp] theorem State.setHalt_z : (s.setHalt).z = s.z := rfl
@[simp] theorem State.setHalt_pc : (s.setHalt).pc = s.pc := rfl
@[simp] theorem State.setHalt_sp : (s.setHalt).sp = s.sp := rfl
@[simp] theorem State.setHalt_halt : (s.setHalt).halt = true := rfl
@[simp] theorem State.setHalt_fault : (s.setHalt).fault = s.fault := rfl
@[simp] theorem State.setHalt_mem : (s.setHalt).mem = s.mem := rfl
@[simp] theorem State.setHalt_image : (s.setHalt).image = s.image := rfl
@[simp] theorem State.setHalt_inValue : (s.setHalt).inValue = s.inValue := rfl
@[simp] theorem State.setHalt_params : (s.setHalt).params = s.params := rfl
@[simp] theorem State.setHalt_out : (s.setHalt).out = s.out := rfl
@[simp] theorem State.setHalt_draws : (s.setHalt).draws = s.draws := rfl
@[simp] theorem State.setHalt_reg (m : RegIndex) : (s.setHalt).reg m = s.reg m := rfl
@[simp] theorem State.setHalt_byte (b0 : Address) : (s.setHalt).byte b0 = s.byte b0 := rfl

/-! ### emit -/

@[simp] theorem State.emit_a (e : Event) : (s.emit e).a = s.a := rfl
@[simp] theorem State.emit_regs (e : Event) : (s.emit e).regs = s.regs := rfl
@[simp] theorem State.emit_c (e : Event) : (s.emit e).c = s.c := rfl
@[simp] theorem State.emit_z (e : Event) : (s.emit e).z = s.z := rfl
@[simp] theorem State.emit_pc (e : Event) : (s.emit e).pc = s.pc := rfl
@[simp] theorem State.emit_sp (e : Event) : (s.emit e).sp = s.sp := rfl
@[simp] theorem State.emit_halt (e : Event) : (s.emit e).halt = s.halt := rfl
@[simp] theorem State.emit_fault (e : Event) : (s.emit e).fault = s.fault := rfl
@[simp] theorem State.emit_mem (e : Event) : (s.emit e).mem = s.mem := rfl
@[simp] theorem State.emit_image (e : Event) : (s.emit e).image = s.image := rfl
@[simp] theorem State.emit_inValue (e : Event) : (s.emit e).inValue = s.inValue := rfl
@[simp] theorem State.emit_params (e : Event) : (s.emit e).params = s.params := rfl
@[simp] theorem State.emit_out (e : Event) : (s.emit e).out = s.out ++ [e] := rfl
@[simp] theorem State.emit_draws (e : Event) : (s.emit e).draws = s.draws := rfl
@[simp] theorem State.emit_reg (e : Event) (m : RegIndex) : (s.emit e).reg m = s.reg m := rfl
@[simp] theorem State.emit_byte (e : Event) (b0 : Address) : (s.emit e).byte b0 = s.byte b0 := rfl

/-! ### countDraw -/

@[simp] theorem State.countDraw_a : (s.countDraw).a = s.a := rfl
@[simp] theorem State.countDraw_regs : (s.countDraw).regs = s.regs := rfl
@[simp] theorem State.countDraw_c : (s.countDraw).c = s.c := rfl
@[simp] theorem State.countDraw_z : (s.countDraw).z = s.z := rfl
@[simp] theorem State.countDraw_pc : (s.countDraw).pc = s.pc := rfl
@[simp] theorem State.countDraw_sp : (s.countDraw).sp = s.sp := rfl
@[simp] theorem State.countDraw_halt : (s.countDraw).halt = s.halt := rfl
@[simp] theorem State.countDraw_fault : (s.countDraw).fault = s.fault := rfl
@[simp] theorem State.countDraw_mem : (s.countDraw).mem = s.mem := rfl
@[simp] theorem State.countDraw_image : (s.countDraw).image = s.image := rfl
@[simp] theorem State.countDraw_inValue : (s.countDraw).inValue = s.inValue := rfl
@[simp] theorem State.countDraw_params : (s.countDraw).params = s.params := rfl
@[simp] theorem State.countDraw_out : (s.countDraw).out = s.out := rfl
@[simp] theorem State.countDraw_draws : (s.countDraw).draws = s.draws + 1 := rfl
@[simp] theorem State.countDraw_reg (m : RegIndex) : (s.countDraw).reg m = s.reg m := rfl
@[simp] theorem State.countDraw_byte (b0 : Address) : (s.countDraw).byte b0 = s.byte b0 := rfl

/-! ### advance -/

@[simp] theorem State.advance_a : (s.advance).a = s.a := rfl
@[simp] theorem State.advance_regs : (s.advance).regs = s.regs := rfl
@[simp] theorem State.advance_c : (s.advance).c = s.c := rfl
@[simp] theorem State.advance_z : (s.advance).z = s.z := rfl
@[simp] theorem State.advance_pc : (s.advance).pc = s.pc + 1 := rfl
@[simp] theorem State.advance_sp : (s.advance).sp = s.sp := rfl
@[simp] theorem State.advance_halt : (s.advance).halt = s.halt := rfl
@[simp] theorem State.advance_fault : (s.advance).fault = s.fault := rfl
@[simp] theorem State.advance_mem : (s.advance).mem = s.mem := rfl
@[simp] theorem State.advance_image : (s.advance).image = s.image := rfl
@[simp] theorem State.advance_inValue : (s.advance).inValue = s.inValue := rfl
@[simp] theorem State.advance_params : (s.advance).params = s.params := rfl
@[simp] theorem State.advance_out : (s.advance).out = s.out := rfl
@[simp] theorem State.advance_draws : (s.advance).draws = s.draws := rfl
@[simp] theorem State.advance_reg (m : RegIndex) : (s.advance).reg m = s.reg m := rfl
@[simp] theorem State.advance_byte (b0 : Address) : (s.advance).byte b0 = s.byte b0 := rfl

/-! ### setResult -/

@[simp] theorem State.setResult_a (r : Byte) : (s.setResult r).a = r := rfl
@[simp] theorem State.setResult_regs (r : Byte) : (s.setResult r).regs = s.regs := rfl
@[simp] theorem State.setResult_c (r : Byte) : (s.setResult r).c = s.c := rfl
@[simp] theorem State.setResult_z (r : Byte) : (s.setResult r).z = zeroFlag r := rfl
@[simp] theorem State.setResult_pc (r : Byte) : (s.setResult r).pc = s.pc := rfl
@[simp] theorem State.setResult_sp (r : Byte) : (s.setResult r).sp = s.sp := rfl
@[simp] theorem State.setResult_halt (r : Byte) : (s.setResult r).halt = s.halt := rfl
@[simp] theorem State.setResult_fault (r : Byte) : (s.setResult r).fault = s.fault := rfl
@[simp] theorem State.setResult_mem (r : Byte) : (s.setResult r).mem = s.mem := rfl
@[simp] theorem State.setResult_image (r : Byte) : (s.setResult r).image = s.image := rfl
@[simp] theorem State.setResult_inValue (r : Byte) : (s.setResult r).inValue = s.inValue := rfl
@[simp] theorem State.setResult_params (r : Byte) : (s.setResult r).params = s.params := rfl
@[simp] theorem State.setResult_out (r : Byte) : (s.setResult r).out = s.out := rfl
@[simp] theorem State.setResult_draws (r : Byte) : (s.setResult r).draws = s.draws := rfl
@[simp] theorem State.setResult_reg (r : Byte) (m : RegIndex) : (s.setResult r).reg m = s.reg m := rfl
@[simp] theorem State.setResult_byte (r : Byte) (b0 : Address) : (s.setResult r).byte b0 = s.byte b0 := rfl

/-! ### takeFault -/

@[simp] theorem takeFault_a (k : FaultCause) : (takeFault k s).a = s.a := rfl
@[simp] theorem takeFault_regs (k : FaultCause) : (takeFault k s).regs = s.regs := rfl
@[simp] theorem takeFault_c (k : FaultCause) : (takeFault k s).c = s.c := rfl
@[simp] theorem takeFault_z (k : FaultCause) : (takeFault k s).z = s.z := rfl
@[simp] theorem takeFault_pc (k : FaultCause) : (takeFault k s).pc = s.pc := rfl
@[simp] theorem takeFault_sp (k : FaultCause) : (takeFault k s).sp = s.sp := rfl
@[simp] theorem takeFault_halt (k : FaultCause) : (takeFault k s).halt = true := rfl
@[simp] theorem takeFault_fault (k : FaultCause) : (takeFault k s).fault = causeCode k := rfl
@[simp] theorem takeFault_mem (k : FaultCause) : (takeFault k s).mem = s.mem := rfl
@[simp] theorem takeFault_image (k : FaultCause) : (takeFault k s).image = s.image := rfl
@[simp] theorem takeFault_inValue (k : FaultCause) : (takeFault k s).inValue = s.inValue := rfl
@[simp] theorem takeFault_params (k : FaultCause) : (takeFault k s).params = s.params := rfl
@[simp] theorem takeFault_out (k : FaultCause) : (takeFault k s).out = s.out := rfl
@[simp] theorem takeFault_draws (k : FaultCause) : (takeFault k s).draws = s.draws := rfl
@[simp] theorem takeFault_reg (k : FaultCause) (m : RegIndex) : (takeFault k s).reg m = s.reg m := rfl
@[simp] theorem takeFault_byte (k : FaultCause) (b0 : Address) : (takeFault k s).byte b0 = s.byte b0 := rfl

end Sys2Proof.Machine
end

