-- ==== Sys2Proof/Laws/Ops.lean ====
section
/-!
SUPPORT. What each shared operation can do, said once: the readers after an update, fault entry, the
engine's end of an instruction, and the shared forms of the meanings.
-/

namespace Sys2Proof.Machine

/-! ### Registers and memory -/

/-- A register after a register write (R14: no register aliases another). -/
theorem State.reg_setReg (s : State) (n m : RegIndex) (v : Byte) :
    (s.setReg n v).reg m = if n = m then v else s.reg m := by
  simp only [State.reg, State.setReg_regs, Vector.getElem_set]
  by_cases h : n = m
  · simp [h]
  · rw [if_neg h, if_neg fun e => h (BitVec.eq_of_toNat_eq e)]

@[simp] theorem State.reg_setReg_same (s : State) (n : RegIndex) (v : Byte) :
    (s.setReg n v).reg n = v := by rw [State.reg_setReg, if_pos rfl]

/-- Every other byte after a memory write, in any state. -/
theorem State.byte_setByte_ne (s : State) {addr b : Address} (h : addr ≠ b) (v : Byte) :
    (s.setByte addr v).byte b = s.byte b :=
  Memory.read_write_ne (fun e => h (BitVec.eq_of_toNat_eq e)) v s.mem

/-- A byte after a memory write, where memory has its canonical form. -/
theorem State.byte_setByte (s : State) (h : Memory.wf s.mem = true) (addr b : Address) (v : Byte) :
    (s.setByte addr v).byte b = if addr = b then v else s.byte b := by
  by_cases e : addr = b
  · subst e
    rw [if_pos rfl]
    exact (Memory.read_write h addr.toNat).trans (if_pos rfl)
  · rw [if_neg e, State.byte_setByte_ne s e]

/-- A memory write keeps the canonical form: every address of 9 bits is in the space (R32). -/
theorem State.setByte_wf (s : State) (h : Memory.wf s.mem = true) (addr : Address) (v : Byte) :
    Memory.wf (s.setByte addr v).mem = true := Memory.write_wf h addr.isLt

/-! ### Causes -/

@[simp] theorem causeOfCode_causeCode (k : FaultCause) : causeOfCode (causeCode k) = some k := by
  cases k <;> rfl

/-- A code has a cause exactly where it is 1 to 9 (R25). -/
theorem causeOfCode_isSome (k : BitVec 4) :
    (causeOfCode k).isSome = (decide (1 ≤ k.toNat) && decide (k.toNat ≤ 9)) := by
  revert k; decide

/-- The cause a code names has that code. -/
theorem causeCode_of_causeOfCode {k : BitVec 4} {c : FaultCause} (h : causeOfCode k = some c) :
    causeCode c = k := by
  revert c; revert k; decide

/-- A cause's code is 1 to 9. -/
theorem causeCode_range (k : FaultCause) : 1 ≤ (causeCode k).toNat ∧ (causeCode k).toNat ≤ 9 := by
  cases k <;> decide

/-! ### How an instruction ends -/

@[simp] theorem done_next {s t : State} : done s = .next t ↔ s.advance = t := by simp [done]

@[simp] theorem doneUpdated_next {s t : State} : doneUpdated s = .next t ↔ s = t := by simp [doneUpdated]

@[simp] theorem raise_next {k : FaultCause} {s t : State} : raise k s = .next t ↔ takeFault k s = t := by
  simp [raise]

/-- Fault entry writes HALT and FAULT, and nothing else, PC included (R115). -/
theorem takeFault_frame (k : FaultCause) (s : State) :
    Frame .ofFault s (takeFault k s) ∧ (takeFault k s).pc = s.pc := by
  refine ⟨?_, rfl⟩
  constructor <;> intros <;> first | rfl | simp_all [Writes.ofFault]

/-! ### The shared forms of the meanings -/

/-- A load into A changes A and PC (R77, R81, R84). -/
theorem loadA_spec {o : Operand} {s t : State} (h : loadA o s = .next t) :
    t.a = s.value o ∧ t.pc = s.pc + 1 ∧ Frame { a := true } s t := by
  rw [loadA, done_next] at h
  subst h
  refine ⟨rfl, rfl, ?_⟩
  constructor <;> intros <;> first | rfl | simp_all

/-- A load into a register changes that register and PC (R79, R82, R83, R85). -/
theorem loadReg_spec {n : RegIndex} {o : Operand} {s t : State} (h : loadReg n o s = .next t) :
    t.reg n = s.value o ∧ t.pc = s.pc + 1 ∧ Frame { reg := some n } s t := by
  rw [loadReg, done_next] at h
  subst h
  refine ⟨by simp, rfl, ?_⟩
  constructor <;> intros <;> first | rfl | skip
  rename_i m hm
  exact (State.reg_setReg s n m _).trans (if_neg fun e => hm (by rw [e]))

/-- A store changes one cell and PC, and the cell reads back where memory has its canonical form (R78, R80). -/
theorem storeByte_spec {addr : Address} {o : Operand} {s t : State} (h : storeByte addr o s = .next t) :
    (Memory.wf s.mem = true → t.byte addr = s.value o) ∧ t.pc = s.pc + 1 ∧ Frame { cell := some addr } s t := by
  rw [storeByte, done_next] at h
  subst h
  refine ⟨fun hw => (State.byte_setByte s hw addr addr _).trans (if_pos rfl), rfl, ?_⟩
  constructor <;> intros <;> first | rfl | skip
  rename_i b hb
  exact State.byte_setByte_ne s (fun e => hb (by rw [e])) _

/-- A result written to A recomputes Z from it and leaves C (R20, R86). -/
theorem resultToA_spec {r : Byte} {s t : State} (h : resultToA r s = .next t) :
    t.a = r ∧ t.z = zeroFlag r ∧ t.pc = s.pc + 1 ∧ Frame { a := true, z := true } s t := by
  rw [resultToA, done_next] at h
  subst h
  refine ⟨rfl, rfl, rfl, ?_⟩
  constructor <;> intros <;> first | rfl | simp_all

/-- ADD writes A, C and Z (R20, R86). -/
theorem addToA_spec {o : Operand} {s t : State} (h : addToA o s = .next t) :
    t.a = add8 s.params.addWrap s.a (s.value o) ∧ t.c = carryFlag s.a (s.value o) ∧
      t.z = zeroFlag t.a ∧ t.pc = s.pc + 1 ∧ Frame { a := true, c := true, z := true } s t := by
  rw [addToA, done_next] at h
  subst h
  refine ⟨rfl, rfl, rfl, rfl, ?_⟩
  constructor <;> intros <;> first | rfl | simp_all

/-- A jump changes nothing but PC (R98). -/
theorem jumpIf_spec {taken : Bool} {target : Index} {s t : State} (h : jumpIf taken target s = .next t) :
    t.pc = (if taken then target else s.pc + 1) ∧ Frame {} s t := by
  unfold jumpIf at h
  split at h
  · rw [doneUpdated_next] at h
    subst h
    refine ⟨by simp_all, ?_⟩
    constructor <;> intros <;> rfl
  · rw [done_next] at h
    subst h
    refine ⟨by simp_all, ?_⟩
    constructor <;> intros <;> rfl

/-! ### The engine -/

/-- The stop condition in words (R71). -/
theorem State.stopped_iff (s : State) : s.stopped = true ↔ s.halt = true ∨ s.progLen ≤ s.pc.toNat := by
  simp [State.stopped]

/-- A step of a stopped core (R71). -/
theorem step_of_stopped {s : State} (h : s.stopped = true) : step s = .next s := by
  rw [step, if_pos h]; rfl

/-- A step of a core that is not stopped executes the instruction of the record at PC (R72). -/
theorem step_of_decode {s : State} {w : Record} {i : Instr} (h : s.stopped = false) (hw : s.fetch = some w)
    (hi : decode w = .ok i) : step s = exec i s := by
  rw [step, if_neg (by simp [h]), hw]
  dsimp only
  rw [hi]

/-- A step of a core that is not stopped at an illegal record raises UNKNOWN_OPCODE (R69, R72). -/
theorem step_of_illegal {s : State} {w : Record} {e : DecodeError} (h : s.stopped = false)
    (hw : s.fetch = some w) (he : decode w = .error e) : step s = .next (takeFault .unknownOpcode s) := by
  rw [step, if_neg (by simp [h]), hw]
  dsimp only
  rw [he]
  rfl

/-- What a step can do: nothing where the core is stopped, else execute the record at PC or take
UNKNOWN_OPCODE (R69, R71, R72). -/
theorem step_cases {s t : State} (h : step s = .next t) :
    (s.stopped = true ∧ t = s) ∨
    (s.stopped = false ∧ ∃ w i, s.fetch = some w ∧ decode w = .ok i ∧ exec i s = .next t) ∨
    (s.stopped = false ∧ ∃ w e, s.fetch = some w ∧ decode w = .error e ∧ t = takeFault .unknownOpcode s) := by
  unfold step at h
  split at h
  · rename_i hs
    simp only [ignoreStep, Host.Outcome.next.injEq] at h
    exact .inl ⟨hs, h.symm⟩
  · rename_i hs
    have hs' : s.stopped = false := by simpa using hs
    split at h
    · rename_i hf
      simp only [State.fetch, List.getElem?_eq_none_iff] at hf
      exact absurd ((State.stopped_iff s).2 (.inr hf)) hs
    · rename_i w hw
      split at h
      · rename_i i hi
        exact .inr (.inl ⟨hs', w, i, hw, hi, h⟩)
      · rename_i e he
        simp only [illegalRecord, raise_next] at h
        exact .inr (.inr ⟨hs', w, e, hw, he, h.symm⟩)

/-- A run of any machine takes its first step and goes on. -/
theorem coreRun_succ (M : Host.Core) {n : Nat} {s t : M.State} (h : M.step s = .next t) :
    M.run (n + 1) s = M.run n t := by
  rw [Host.Core.run, h]

/-- A run of this machine takes its first step and goes on. -/
theorem run_succ {n : Nat} {s t : State} (h : step s = .next t) :
    Sys2Proof.core.run (n + 1) s = Sys2Proof.core.run n t := coreRun_succ Sys2Proof.core h

/-- The next state of a composition of meanings begins with the next state of its first. -/
theorem execAll_cons {i : Instr} {is : List Instr} {s t : State} (h : exec i s = .next t) :
    execAll (i :: is) s = execAll is t := by
  rw [execAll, h]

end Sys2Proof.Machine
end

