-- ==== Sys2Proof/Laws/PerInstr.lean ====
section
/-!
SUPPORT. A family of laws about every instruction as syntax: the record of an instruction carries the
tag of the instruction's form and 0 in bits 17:16 (30_encoding.md rules R64 and R65).
-/

namespace Sys2Proof.Laws

/-- The tag of the row's form (R65): the rows of spec/opcode_table.json but the last stand in tag
order from 0x00 to 0x20, and the FAULT record has tag 0x3F. -/
def tagOfRow (row : Nat) : BitVec 6 := if row = 33 then 0x3F else BitVec.ofNat 6 row

/-- The record of `i` has the tag of the form of `i`, and 0 in the field `zero`. -/
def EncodeTag.Statement (i : Instr) : Prop :=
  (Fields.ofWord (encode i)).tag = tagOfRow i.row ∧ (Fields.ofWord (encode i)).zero = 0

/-- It is enough to look at the fields the record was made from. -/
theorem EncodeTag.of_fields {i : Instr} (h : (encodeFields i).tag = tagOfRow i.row)
    (hz : (encodeFields i).zero = 0) : EncodeTag.Statement i := by
  rw [EncodeTag.Statement, ofWord_encode]
  exact ⟨h, hz⟩

theorem EncodeTag.nop : EncodeTag.Statement (.nop) := EncodeTag.of_fields rfl rfl
theorem EncodeTag.lda (addr : Address) : EncodeTag.Statement (.lda addr) := EncodeTag.of_fields rfl rfl
theorem EncodeTag.sta (addr : Address) : EncodeTag.Statement (.sta addr) := EncodeTag.of_fields rfl rfl
theorem EncodeTag.ldr (n : RegIndex) (addr : Address) : EncodeTag.Statement (.ldr n addr) := EncodeTag.of_fields rfl rfl
theorem EncodeTag.str (n : RegIndex) (addr : Address) : EncodeTag.Statement (.str n addr) := EncodeTag.of_fields rfl rfl
theorem EncodeTag.ldi (imm : Byte) : EncodeTag.Statement (.ldi imm) := EncodeTag.of_fields rfl rfl
theorem EncodeTag.ldri (n : RegIndex) (imm : Byte) : EncodeTag.Statement (.ldri n imm) := EncodeTag.of_fields rfl rfl
theorem EncodeTag.movRR (src : RegIndex) (dst : RegIndex) : EncodeTag.Statement (.movRR src dst) := EncodeTag.of_fields rfl rfl
theorem EncodeTag.movRA (src : RegIndex) : EncodeTag.Statement (.movRA src) := EncodeTag.of_fields rfl rfl
theorem EncodeTag.movAR (dst : RegIndex) : EncodeTag.Statement (.movAR dst) := EncodeTag.of_fields rfl rfl
theorem EncodeTag.addR (n : RegIndex) : EncodeTag.Statement (.addR n) := EncodeTag.of_fields rfl rfl
theorem EncodeTag.addM (addr : Address) : EncodeTag.Statement (.addM addr) := EncodeTag.of_fields rfl rfl
theorem EncodeTag.sub (addr : Address) : EncodeTag.Statement (.sub addr) := EncodeTag.of_fields rfl rfl
theorem EncodeTag.and (addr : Address) : EncodeTag.Statement (.and addr) := EncodeTag.of_fields rfl rfl
theorem EncodeTag.or (addr : Address) : EncodeTag.Statement (.or addr) := EncodeTag.of_fields rfl rfl
theorem EncodeTag.xor (addr : Address) : EncodeTag.Statement (.xor addr) := EncodeTag.of_fields rfl rfl
theorem EncodeTag.not : EncodeTag.Statement (.not) := EncodeTag.of_fields rfl rfl
theorem EncodeTag.inc : EncodeTag.Statement (.inc) := EncodeTag.of_fields rfl rfl
theorem EncodeTag.dec : EncodeTag.Statement (.dec) := EncodeTag.of_fields rfl rfl
theorem EncodeTag.rol : EncodeTag.Statement (.rol) := EncodeTag.of_fields rfl rfl
theorem EncodeTag.ror : EncodeTag.Statement (.ror) := EncodeTag.of_fields rfl rfl
theorem EncodeTag.jmp (target : Index) : EncodeTag.Statement (.jmp target) := EncodeTag.of_fields rfl rfl
theorem EncodeTag.jz (target : Index) : EncodeTag.Statement (.jz target) := EncodeTag.of_fields rfl rfl
theorem EncodeTag.jnz (target : Index) : EncodeTag.Statement (.jnz target) := EncodeTag.of_fields rfl rfl
theorem EncodeTag.jc (target : Index) : EncodeTag.Statement (.jc target) := EncodeTag.of_fields rfl rfl
theorem EncodeTag.jnc (target : Index) : EncodeTag.Statement (.jnc target) := EncodeTag.of_fields rfl rfl
theorem EncodeTag.push : EncodeTag.Statement (.push) := EncodeTag.of_fields rfl rfl
theorem EncodeTag.pop : EncodeTag.Statement (.pop) := EncodeTag.of_fields rfl rfl
theorem EncodeTag.inp : EncodeTag.Statement (.inp) := EncodeTag.of_fields rfl rfl
theorem EncodeTag.outA : EncodeTag.Statement (.outA) := EncodeTag.of_fields rfl rfl
theorem EncodeTag.outR (n : RegIndex) : EncodeTag.Statement (.outR n) := EncodeTag.of_fields rfl rfl
theorem EncodeTag.hlt : EncodeTag.Statement (.hlt) := EncodeTag.of_fields rfl rfl
theorem EncodeTag.print (template : Index) : EncodeTag.Statement (.print template) := EncodeTag.of_fields rfl rfl
theorem EncodeTag.fault (cause : BitVec 4) : EncodeTag.Statement (.fault cause) := EncodeTag.of_fields rfl rfl

end Sys2Proof.Laws
end

