-- ==== Sys2Proof/Tests/Slice0.lean ====
section
/-!
SUPPORT. The model's own tests. Expected results come from the spec: the worked records of
30_encoding.md rule R70, the vectors of 95_test_vectors.md (cited by id), the examples of each rule.
-/

namespace Sys2Proof.Tests

open Sys2Proof.Machine

/-! ### Helpers -/

/-- The reset state with `IN_VALUE = 7` (vector S8). -/
def base : State := { State.reset with inValue := 7 }

/-- The state an instruction leaves, or the reset state with HALT set where it leaves none. -/
def after (i : Instr) (s : State) : State :=
  match exec i s with
  | .next t => t
  | _ => { base with halt := true, fault := 15 }

/-- A base state that holds a program, PC at 0. -/
def loaded (records : List Record) : State := { base with image := ⟨records, []⟩ }

/-- The state one step leaves. -/
def stepped (s : State) : State :=
  match step s with
  | .next t => t
  | _ => { base with halt := true, fault := 15 }

/-- What a word decodes to, as an option. -/
def decoded (w : Record) : Option Instr := (decode w).toOption

/-- The record a line decodes to with no labels, PRINT lines being template 0. -/
def lineRecord (l : String) : Option Record := (translateLines [] 0 [l.toList]).records[0]?

/-! ### Well-formed instructions: an ill-formed term for each check -/

theorem test_wf_refuses_cause_0 : Instr.wf (.fault 0) = false := by decide
theorem test_wf_refuses_cause_10 : Instr.wf (.fault 10) = false := by decide
theorem test_wf_accepts_cause_9 : Instr.wf (.fault 9) = true := by decide
theorem test_fits_refuses_target : Instr.fits 6 1 (.jmp 7) = false := by decide
theorem test_fits_accepts_target_N : Instr.fits 6 1 (.jnz 6) = true := by decide
theorem test_fits_refuses_template : Instr.fits 6 1 (.print 1) = false := by decide
theorem test_image_refuses_cause : Image.wf ⟨[0xFC00000A], []⟩ = false := by decide
theorem test_image_refuses_fault_bit4 : Image.wf ⟨[0xFC000010], []⟩ = false := by decide
theorem test_image_refuses_template : Image.wf ⟨[0x80000000], []⟩ = false := by decide
theorem test_image_refuses_reserved_tag : Image.wf ⟨[0x84000000], []⟩ = false ∧ Image.wf ⟨[0x04000200], []⟩ = false := by decide
theorem test_image_accepts_target_N : Image.wf ⟨[0x54000001], []⟩ = true := by decide

/-! ### Decoding: words written out from the spec's encodings -/

/-- R70: `LDRI R1, 5`, `MOV R1, A`, `MOV R2, R7`, `INC`, `OUT`. -/
theorem test_decode_R70_a : decoded 0x18400005 = some (.ldri 1 5) ∧ decoded 0x20400000 = some (.movRA 1) ∧
    decoded 0x1C9C0000 = some (.movRR 2 7) ∧ decoded 0x44000000 = some .inc ∧
    decoded 0x74000000 = some .outA := by decide

/-- R70: `HLT`, `STA 0x1FF`, `STA 600`, `FOO`, `JNZ LOOP` with LOOP = 1. -/
theorem test_decode_R70_b : decoded 0x7C000000 = some .hlt ∧ decoded 0x080001FF = some (.sta 511) ∧
    decoded 0xFC000005 = some (.fault 5) ∧ decoded 0xFC000001 = some (.fault 1) ∧
    decoded 0x5C000001 = some (.jnz 1) := by decide

/-- Vectors T1, T2, T7, T8, T9, T17, T18: NOP, LDA 0x10, LDR R15, 5, STR R3, 0x1FF, LDI 0, MOV A, R0, MOV A, R15. -/
theorem test_decode_transfer : decoded 0x00000000 = some .nop ∧ decoded 0x04000010 = some (.lda 16) ∧
    decoded 0x0FC00005 = some (.ldr 15 5) ∧ decoded 0x10C001FF = some (.str 3 511) ∧
    decoded 0x14000000 = some (.ldi 0) ∧ decoded 0x24000000 = some (.movAR 0) ∧
    decoded 0x243C0000 = some (.movAR 15) := by decide

/-- Section 2.2: ADD R1, ADD 5, SUB 1, AND 1, OR 1, XOR 1, NOT, DEC, ROL, ROR. -/
theorem test_decode_alu : decoded 0x28400000 = some (.addR 1) ∧ decoded 0x2C000005 = some (.addM 5) ∧
    decoded 0x30000001 = some (.sub 1) ∧ decoded 0x34000001 = some (.and 1) ∧ decoded 0x38000001 = some (.or 1) ∧
    decoded 0x3C000001 = some (.xor 1) ∧ decoded 0x40000000 = some .not ∧ decoded 0x48000000 = some .dec ∧
    decoded 0x4C000000 = some .rol ∧ decoded 0x50000000 = some .ror := by decide

/-- Section 2.3: JMP END (7), JZ DONE (9), JC OVF (10), JNC L (0). -/
theorem test_decode_control : decoded 0x54000007 = some (.jmp 7) ∧ decoded 0x58000009 = some (.jz 9) ∧
    decoded 0x6000000A = some (.jc 10) ∧ decoded 0x64000000 = some (.jnc 0) := by decide

/-- Section 2.4: PUSH, POP, IN, OUT R9, PRINT with template 0. -/
theorem test_decode_system : decoded 0x68000000 = some .push ∧ decoded 0x6C000000 = some .pop ∧
    decoded 0x70000000 = some .inp ∧ decoded 0x7A400000 = some (.outR 9) ∧
    decoded 0x80000000 = some (.print 0) := by decide

/-- Section 2.5, illegal records: two reserved tags and six nonzero unused fields. -/
theorem test_decode_illegal : decoded 0x84000000 = none ∧ decoded 0xF8000000 = none ∧ decoded 0x00000001 = none ∧
    decoded 0x00010000 = none ∧ decoded 0x04000200 = none ∧ decoded 0x14000100 = none ∧
    decoded 0x44400000 = none ∧ decoded 0xFC000010 = none := by decide

/-- A word is rejected by name (R69). -/
theorem test_decode_names : (decode 0x84000000 matches .error (.reservedTag 0x21)) = true ∧
    (decode 0x04000200 matches .error (.unusedFieldNonzero 1)) = true := by decide

/-- Encoding gives the records of R70 and W1. -/
theorem test_encode : encode (.movRR 2 7) = 0x1C9C0000 ∧ encode (.ldri 15 255) = 0x1BC000FF ∧
    encode (.fault 5) = 0xFC000005 ∧ encode (.sta 511) = 0x080001FF := by decide

/-- The table's first and last row through the host's entry point. -/
theorem test_decodeTableWord : decodeTableWord 32 0x0FC00005 = some (.ldr 15 5) ∧
    decodeTableWord 32 0xFC000001 = some (.fault 1) ∧ decodeTableWord 32 0x84000000 = none := by decide

/-! ### Transfer family (section 2.1) -/

/-- T1. -/
theorem test_nop : (after .nop { base with pc := 4 }).pc = 5 := by decide
/-- T2, T3. -/
theorem test_lda : (after (.lda 0x10) { base with mem := [(16, 7)], z := true }).a = 7 ∧
    (after (.lda 0) { base with a := 5 }).z = false := by decide
/-- T5, and the cell that held the value before is dropped when 0 is stored. -/
theorem test_sta : (after (.sta 0x20) { base with a := 9 }).mem = [(32, 9)] ∧
    (after (.sta 0x20) { base with mem := [(3, 1), (32, 9)] }).mem = [(3, 1)] := by decide
/-- T7. -/
theorem test_ldr : (after (.ldr 15 5) { base with mem := [(5, 200)] }).reg 15 = 200 := by decide
/-- T8. -/
theorem test_str : (after (.str 3 0x1FF) (base.setReg 3 0xAB)).byte 511 = 0xAB := by decide
/-- T9, T10. -/
theorem test_ldi : (after (.ldi 0) { base with z := true, a := 3 }).z = true ∧ (after (.ldi 0) base).z = false := by decide
/-- §8 scenario A. -/
theorem test_ldri : (after (.ldri 1 5) base).reg 1 = 5 ∧ (after (.ldri 1 5) base).reg 0 = 0 := by decide
/-- T14. -/
theorem test_movRR : (after (.movRR 2 7) (base.setReg 2 17)).reg 7 = 17 ∧
    (after (.movRR 2 7) (base.setReg 2 17)).reg 2 = 17 := by decide
/-- T16. -/
theorem test_movRA : (after (.movRA 1) (base.setReg 1 5)).a = 5 := by decide
/-- T17. -/
theorem test_movAR : (after (.movAR 0) { base with a := 0x80 }).reg 0 = 0x80 := by decide

/-! ### ALU family (section 2.2) -/

/-- D12 to D15 under MASK. -/
theorem test_add_mask : (after (.addR 1) { base.setReg 1 1 with a := 255 }).a = 0 ∧
    (after (.addR 1) { base.setReg 1 1 with a := 255 }).c = true ∧
    (after (.addR 1) { base.setReg 1 1 with a := 255 }).z = true ∧
    (after (.addR 1) { base.setReg 1 100 with a := 200 }).a = 44 := by decide
/-- D12, D15 under SUB255, with a memory operand; D20: ADD clears C. -/
theorem test_add_sub255 :
    (after (.addM 5) { base with a := 255, mem := [(5, 1)], params := { Params.default with addWrap := .sub255 } }).a = 1 ∧
    (after (.addM 5) { base with a := 255, mem := [(5, 255)], params := { Params.default with addWrap := .sub255 } }).a = 255 ∧
    (after (.addM 5) { base with a := 1, c := true, mem := [(5, 1)] }).c = false := by decide
/-- D30, D32, D33: WRAP, C unchanged. -/
theorem test_sub : (after (.sub 1) { base with a := 10, c := true, mem := [(1, 4)] }).a = 6 ∧
    (after (.sub 1) { base with a := 3, c := true, mem := [(1, 5)] }).a = 254 ∧
    (after (.sub 1) { base with a := 3, c := true, mem := [(1, 5)] }).c = true ∧
    (after (.sub 1) { base with a := 0, mem := [(1, 1)] }).a = 255 := by decide
/-- D32 under DRAW: the draw is counted, C is unchanged, PC advances. -/
theorem test_sub_draw :
    (after (.sub 1) { base with a := 3, c := true, mem := [(1, 5)], params := { Params.default with subUnderflow := .draw } }).draws = 1 ∧
    (after (.sub 1) { base with a := 3, c := true, mem := [(1, 5)], params := { Params.default with subUnderflow := .draw } }).c = true := by decide
/-- D35, D36. -/
theorem test_and : (after (.and 1) { base with a := 0xF0, mem := [(1, 0x3C)] }).a = 0x30 ∧
    (after (.and 1) { base with a := 0xF0, mem := [(1, 0x0F)] }).z = true := by decide
/-- D37. -/
theorem test_or : (after (.or 1) { base with a := 0x0F, mem := [(1, 0xF0)] }).a = 0xFF := by decide
/-- D39, D40. -/
theorem test_xor : (after (.xor 1) { base with a := 0xAA, mem := [(1, 0xFF)] }).a = 0x55 ∧
    (after (.xor 1) { base with a := 0x5A, mem := [(1, 0x5A)] }).z = true := by decide
/-- Section 2.2, the NOT column. -/
theorem test_not : [0x00, 0x0F, 0x80, 0xFF].map (fun a => (after .not { base with a := a }).a) = [0xFF, 0xF0, 0x7F, 0x00] := by decide
/-- The INC column, and D50: the wrap does not set C. -/
theorem test_inc : [0x00, 0x7F, 0xFF].map (fun a => (after .inc { base with a := a }).a) = [0x01, 0x80, 0x00] ∧
    (after .inc { base with a := 255 }).z = true ∧ (after .inc { base with a := 255 }).c = false := by decide
/-- The DEC column. -/
theorem test_dec : [0x00, 0x01, 0x80].map (fun a => (after .dec { base with a := a }).a) = [0xFF, 0x00, 0x7F] := by decide
/-- The ROL column. -/
theorem test_rol : [0x01, 0x7F, 0x80, 0x81, 0xAA].map (fun a => (after .rol { base with a := a }).a) = [0x02, 0xFE, 0x01, 0x03, 0x55] := by decide
/-- The ROR column. -/
theorem test_ror : [0x01, 0x0F, 0x7F, 0x81, 0xAA].map (fun a => (after .ror { base with a := a }).a) = [0x80, 0x87, 0xBF, 0xC0, 0x55] := by decide

/-! ### Control family (section 2.3) -/

/-- J1. -/
theorem test_jmp : (after (.jmp 7) { base with pc := 2 }).pc = 7 := by decide
/-- J4, J5. -/
theorem test_jz : (after (.jz 9) { base with pc := 4, z := true }).pc = 9 ∧ (after (.jz 9) { base with pc := 4 }).pc = 5 := by decide
/-- J6, J7. -/
theorem test_jnz : (after (.jnz 1) { base with pc := 4 }).pc = 1 ∧ (after (.jnz 1) { base with pc := 4, z := true }).pc = 5 := by decide
/-- J8, J9. -/
theorem test_jc : (after (.jc 10) { base with pc := 4, c := true }).pc = 10 ∧ (after (.jc 10) { base with pc := 4 }).pc = 5 := by decide
/-- J10, J11. -/
theorem test_jnc : (after (.jnc 0) { base with pc := 4 }).pc = 0 ∧ (after (.jnc 0) { base with pc := 4, c := true }).pc = 5 := by decide

/-! ### Stack, I/O and system family (section 2.4) -/

/-- S1, S4. -/
theorem test_push : (after .push { base with a := 42 }).mem = [(511, 42)] ∧ (after .push { base with a := 42 }).sp = 510 ∧
    (after .push { base with a := 5, sp := 1 }).sp = 0 := by decide
/-- S5. -/
theorem test_push_overflow : after .push { base with a := 5, sp := 0 } = { base with a := 5, sp := 0, halt := true, fault := 7 } := by decide
/-- S2, S7. -/
theorem test_pop : (after .pop { base with sp := 510, mem := [(511, 42)] }).a = 42 ∧
    (after .pop { base with sp := 510, mem := [(511, 42)] }).sp = 511 ∧ (after .pop { base with sp := 510 }).z = false := by decide
/-- S3. -/
theorem test_pop_underflow : after .pop base = { base with halt := true, fault := 8 } := by decide
/-- S8, S9. -/
theorem test_in : (after .inp { base with c := true }).a = 7 ∧ (after .inp { base with c := true }).z = false ∧
    (after .inp { base with inValue := 0 }).z = true := by decide
/-- S10. -/
theorem test_out : (after .outA { base with a := 6 }).out = [.out 6] := by decide
/-- S11: and the host shows the decimal text (R105). -/
theorem test_outR : renderedOutput (after (.outR 9) (base.setReg 9 255)) = [['2', '5', '5']] := by decide
/-- S12. -/
theorem test_hlt : after .hlt { base with pc := 4 } = { base with pc := 4, halt := true } := by decide
/-- S13. -/
theorem test_print : (after (.print 0) { base with pc := 3 }).out = [.print 0 { base with pc := 3 }.toArch] ∧
    (after (.print 0) { base with pc := 3 }).pc = 4 := by decide
/-- S14. -/
theorem test_fault_record : after (.fault 5) { base with pc := 2 } = { base with pc := 2, halt := true, fault := 5 } := by decide
/-- R67: a FAULT record with a reserved cause has no run. -/
theorem test_fault_record_ill_formed :
    (match exec (.fault 10) base with | .refused (.illFormedFaultRecord 10) => true | _ => false) = true := by decide

/-! ### The step -/

/-- S15, and a program of no records: a stopped core ignores the request. -/
theorem test_step_stopped : stepped { base with halt := true } = { base with halt := true } ∧ stepped base = base := by decide
/-- Section 2.5: an illegal record raises UNKNOWN_OPCODE and changes nothing else. -/
theorem test_step_illegal : stepped (loaded [0x84000000]) = { loaded [0x84000000] with halt := true, fault := 1 } := by decide
/-- The host's entry point: the placed word is the next instruction to run, from reset and from a stopped state. -/
theorem test_withFetchWord : (stepped (base.withFetchWord 32 0x14000003)).a = 3 ∧
    (stepped ({ base with halt := true, pc := 2 }.withFetchWord 32 0x14000003)).a = 3 := by decide
/-- R9: `rst` resets and keeps the image; without a request nothing moves. -/
theorem test_cycle : (match cycle true true { loaded [0x14000003] with a := 9, pc := 1 } with
      | .next t => decide (t = loaded [0x14000003]) | _ => false) = true ∧
    (match cycle false false (loaded [0x14000003]) with | .next t => decide (t = loaded [0x14000003]) | _ => false) = true := by decide
/-- R67: boot refuses an ill-formed image. -/
theorem test_boot_refuses : boot Params.default 0 ⟨[0x54000002], []⟩ 0 = none := by decide
/-- D28, I21: it refuses an image that holds a word of no row. -/
theorem test_boot_refuses_illegal_record : boot Params.default 0 ⟨[0x00000000, 0x84000000], []⟩ 0 = none := by decide
/-- R10: the snapshot port does not show HALT and FAULT, which have ports of their own. -/
theorem test_snapshot : snapshot { base with halt := true, fault := 7 } = snapshot base ∧
    (snapshot { base with a := 5 }).a = 5 ∧ haltedPort { base with halt := true, fault := 7 } = true ∧
    faultPort { base with halt := true, fault := 7 } = 7 := by decide

/-! ### Text (section 2.5): each line decodes to the record shown -/

theorem test_lines_order : lineRecord "LDR R20, 600" = some 0xFC000004 ∧ lineRecord "LDR X, 600" = some 0xFC000003 ∧
    lineRecord "LDR R2" = some 0xFC000002 ∧ lineRecord "INC 5" = some 0xFC000002 ∧
    lineRecord "OUT R1, R2" = some 0xFC000002 ∧ lineRecord "FOO R1" = some 0xFC000001 := by decide
theorem test_lines_syntax : lineRecord "LDA R3" = some 0xFC000003 ∧ lineRecord "LDA 1a" = some 0xFC000003 ∧
    lineRecord "LDA 0x" = some 0xFC000003 ∧ lineRecord "LDA $10" = some 0xFC000003 ∧
    lineRecord "LDI -1" = some 0xFC000003 ∧ lineRecord "LDI 0x10" = some 0xFC000003 ∧
    lineRecord "LDRI A, 5" = some 0xFC000003 ∧ lineRecord "OUT A" = some 0xFC000003 := by decide
theorem test_lines_forms : lineRecord "ADD A" = some 0xFC000003 ∧ lineRecord "SUB R1" = some 0xFC000003 ∧
    lineRecord "MOV A, A" = some 0xFC000003 ∧ lineRecord "MOV A, R16" = some 0xFC000004 ∧
    lineRecord "ldri r1, 5" = some 0xFC000003 ∧ lineRecord "ldri R1,,5" = some 0x18400005 ∧
    lineRecord "MOV R1 A" = some 0x20400000 ∧ lineRecord "STA 0X1ff" = some 0x080001FF := by decide
theorem test_lines_range : lineRecord "STA 512" = some 0xFC000005 ∧ lineRecord "JMP nowhere" = some 0xFC000006 ∧
    lineRecord "LDI 1000" = some 0x140000E8 ∧ lineRecord "LDRI R0, 300" = some 0x1800002C ∧
    lineRecord "PRINT x, y: z" = some 0x80000000 := by decide

/-! ### The loader (section 2.6) -/

/-- The section's source. -/
def loaderSource : Text :=
  ("; header comment only\n\nSTART:\nTOP:    LDI 5      ; two labels, one index\n" ++
   "        print A is: now, here\n        PRINT\n  A: B: INC\nMID: ; label with comment only\n" ++
   "        JMP loop\n        HLT\nEND:\n").toList

set_option maxRecDepth 8000 in
/-- "The rules give N = 6 and labels START = 0, TOP = 0, A = 3, MID = 4, END = 6." -/
theorem test_loader_labels : (scan loaderSource).labels =
    [("START".toList, 0), ("TOP".toList, 0), ("A".toList, 3), ("MID".toList, 4), ("END".toList, 6)] := by decide
set_option maxRecDepth 8000 in
/-- Its records and templates. -/
theorem test_loader_image : (load loaderSource).toOption =
    some ⟨[0x14000005, 0x80000000, 0x80000001, 0xFC000001, 0xFC000006, 0x7C000000],
      ["A is: now, here".toList, []]⟩ := by decide
/-- The refused sources, and CR as whitespace. -/
theorem test_loader_refusals :
    (load "X: NOP\nX: HLT".toList matches .error .duplicateLabel) = true ∧
    (load "MY LABEL: NOP".toList matches .error .malformedLabel) = true ∧
    (load ": NOP".toList matches .error .malformedLabel) = true ∧
    (load "LDI 5\r\nHLT\r\n".toList).toOption = some ⟨[0x14000005, 0x7C000000], []⟩ := by decide
/-- Scenario B (W7): a backward label. -/
theorem test_loader_scenario_B : (load "LDI 3\nLOOP: DEC\nJNZ LOOP\nHLT".toList).toOption =
    some ⟨[0x14000003, 0x48000000, 0x5C000001, 0x7C000000], []⟩ := by decide

/-! ### Witnesses: a concrete state and operands that meet the hypotheses of each statement that has some -/

/-- An instruction that answers a next state; the statements with the premise `exec i s = .next t`. -/
def answers (i : Instr) (s : State) : Bool := match exec i s with | .next _ => true | _ => false

/-- A state whose parameters are the other choices of R7. -/
def other : State := { base with params := ⟨.sub255, .draw, .draw, .host⟩ }

/-- A legal state that runs: one NOP and one PUSH, PC at 0. -/
def running : State := loaded [0x00000000, 0x68000000]

theorem test_witness_EncodeOfDecodeIsTheWord : decode 0x0FC00005 = .ok (.ldr 15 5) ∧
    decode 0xFC000009 = .ok (.fault 9) := ⟨rfl, rfl⟩
theorem test_witness_DecoderAgreesWithTheOpcodeTable : decode 0x0FC00005 = .ok (.ldr 15 5) ∧
    (∃ r, opcodeTable[3]? = some r ∧ r.matchesWord 0x0FC00005 = true) ∧
    (∃ r, opcodeTable[33]? = some r ∧ r.matchesWord 0xFC00000F = true) := ⟨rfl, ⟨_, rfl, by decide⟩, ⟨_, rfl, by decide⟩⟩
theorem test_witness_IllegalEncodings_text : ∀ e ∈ mnemonicTable, e.1 ≠ foldCase (firstToken "FOO R1".toList) := by decide
theorem test_witness_IllegalEncodings_tag : (loaded [0x84000000]).halt = false ∧
    (loaded [0x84000000]).image.records[(loaded [0x84000000]).pc.toNat]? = some 0x84000000 ∧
    ∀ r ∈ opcodeTable, r.matchesWord 0x84000000 = false := by decide
theorem test_witness_IllegalEncodings_unused_field : ∀ r ∈ opcodeTable, r.matchesWord 0x04000200 = false := by decide
theorem test_witness_StepRunsTheDecodedInstruction : running.halt = false ∧
    running.image.records[running.pc.toNat]? = some 0x00000000 ∧ decode 0x00000000 = .ok .nop := ⟨by decide, by decide, rfl⟩
theorem test_witness_PcAfterEveryInstruction : answers (.jmp 7) base = true ∧ answers .hlt base = true ∧
    answers .pop base = true ∧ answers (.jz 9) { base with pc := 65535 } = true := by decide
theorem test_witness_EveryWellFormedInstruction : Instr.wf (.fault 1) = true ∧ Instr.wf (.fault 9) = true ∧
    Instr.wf (.jmp 65535) = true := by decide
theorem test_witness_OnlyResetLeavesAStoppedCore : { base with halt := true }.halt = true ∧
    { running with pc := 2 }.image.records.length ≤ { running with pc := 2 }.pc.toNat ∧
    running.image.records ≠ [] := by decide
theorem test_witness_ARunEndsInOneOfThreeWays : { running with pc := 2 }.Legal ∧ { running with halt := true }.Legal ∧
    { running with halt := true, fault := 9 }.Legal ∧ running.Legal := by decide
theorem test_witness_ResetPutsEveryState : base.params.resetRegs = .zero ∧ other.params.resetRegs = .draw := by decide
theorem test_witness_HostSuppliedStateIsConstant : (stepped running).pc = 1 := by decide
theorem test_witness_ResetForgetsTheEarlierRun : { base with a := 3, draws := 4 } ≠ { base with a := 5, out := [.out 1] } ∧
    { base with a := 3, draws := 4 }.params = { base with a := 5, out := [.out 1] }.params ∧ base.params.resetRegs = .zero := by decide
theorem test_witness_FaultsArePrecise : answers .push { base with sp := 0 } = true ∧
    (after .push { base with sp := 0 }).fault ≠ { base with sp := 0 }.fault := by decide
theorem test_witness_FaultRecordRaisesItsCause : 1 ≤ (1 : BitVec 4).toNat ∧ (9 : BitVec 4).toNat ≤ 9 := by decide
theorem test_witness_ReservedCauseIsRefused : (0 : BitVec 4) = 0 ∧ 10 ≤ (10 : BitVec 4).toNat ∧ 10 ≤ (15 : BitVec 4).toNat := by decide
theorem test_witness_LoadsIntoTheAccumulator : (∃ addr : Address, Instr.lda 511 = .lda addr ∧ (0 : Byte) = base.byte addr) ∧
    Instr.ldi 255 = .ldi 255 ∧ ∃ n : RegIndex, Instr.movRA 15 = .movRA n ∧ (0 : Byte) = base.reg n :=
  ⟨⟨511, rfl, by decide⟩, rfl, ⟨15, rfl, by decide⟩⟩
theorem test_witness_LoadsIntoARegister : (∃ addr : Address, Instr.ldr 0 511 = .ldr 0 addr ∧ (0 : Byte) = base.byte addr) ∧
    (∃ m : RegIndex, Instr.movRR 15 15 = .movRR m 15 ∧ (0 : Byte) = base.reg m) ∧
    (Instr.movAR 3 = .movAR 3 ∧ (0 : Byte) = base.a) :=
  ⟨⟨511, rfl, by decide⟩, ⟨15, rfl, by decide⟩, rfl, by decide⟩
theorem test_witness_StoresWriteExactlyOneByte : Memory.wf { base with mem := [(0, 1), (511, 2)] }.mem = true ∧
    Memory.wf base.mem = true ∧ base.a = 0 ∧ base.reg 15 = 0 := by decide
theorem test_witness_Add_255 : { base.setReg 1 55 with a := 200 }.a.toNat + ({ base.setReg 1 55 with a := 200 }.reg 1).toNat ≤ 255 := by decide
theorem test_witness_Add_256 : 255 < { base with a := 255, mem := [(5, 1)] }.a.toNat + ({ base with a := 255, mem := [(5, 1)] }.byte 5).toNat ∧
    base.params.addWrap = .mask ∧ other.params.addWrap = .sub255 := by decide
theorem test_witness_Sub : (base.byte 1).toNat ≤ base.a.toNat ∧
    base.a.toNat < ({ base with mem := [(1, 1)] }.byte 1).toNat ∧ base.params.subUnderflow = .wrap ∧
    other.a.toNat < ({ other with mem := [(1, 1)] }.byte 1).toNat ∧ other.params.subUnderflow = .draw := by decide
theorem test_witness_ZeroIsAboutTheLastFlagWriter : answers .inc base = true ∧ writesZero .inc = true ∧
    answers (.ldi 0) base = true ∧ writesZero (.ldi 0) = false := by decide
theorem test_witness_FlagsAreReadOnlyByTheirJumps : answers (.addR 1) base = true ∧ readsCarry (.addR 1) = false ∧
    readsZero (.addR 1) = false ∧ readsCarry (.jz 1) = false ∧ readsZero (.jc 1) = false := by decide
theorem test_witness_PushStoresAtTheOldStackPointer : Memory.wf { base with sp := 1 }.mem = true ∧ { base with sp := 1 }.sp ≠ 0 ∧
    base.sp ≠ 0 := by decide
theorem test_witness_PopLoadsFromTheNewStackPointer : { base with sp := 510 }.sp ≠ 511 ∧ { base with sp := 0 }.sp ≠ 511 := by decide
theorem test_witness_StackEndsFault : { base with sp := 0 }.sp = 0 ∧ base.sp = 511 := by decide
theorem test_witness_PushThenPopIsARoundTrip : Memory.wf base.mem = true ∧ base.sp ≠ 0 ∧ { base with sp := 1 }.sp ≠ 0 := by decide
theorem test_witness_StackHoldsAtMost511Bytes : base.sp = 511 ∧ 0 ≤ 511 ∧ 511 ≤ 511 := by decide
theorem test_witness_OutAppendsOneEvent : Instr.outA = .outA ∧ (0 : Byte) = base.a ∧ Instr.outR 9 = .outR 9 ∧ (0 : Byte) = base.reg 9 := by decide
theorem test_witness_PrintAppendsASnapshot : base.params.printCheck = .never := by decide
theorem test_witness_PrintCheckDecidesPrintFault : other.params.printCheck = .host := by decide
theorem test_witness_FrameOfEveryInstruction : answers (.sta 511) base = true ∧ answers .push base = true := by decide
theorem test_witness_AtMostOneEventPerStep : (stepped (loaded [0x74000000])).out = [.out 0] ∧
    (stepped { loaded [0x68000000] with sp := 0 }).fault ≠ 0 := by decide
theorem test_witness_OutputStreamIsNeverRead : answers .outA { base with out := [.out 1] } = true := by decide
theorem test_witness_EveryStepKeepsTheStateLegal : running.Legal ∧ (stepped running).pc = 1 := by decide
theorem test_witness_BootGivesALegalState : boot Params.default 7 ⟨[0x54000001], []⟩ 0 = some (loaded [0x54000001]) ∧
    Image.wf ⟨[0x54000002], []⟩ = false := by decide
theorem test_witness_EveryRunOfAWellFormedImageGoesOn : boot Params.default 7 running.image 0 = some running := by decide
theorem test_witness_MemoriesThatReadAlikeAreEqual : Memory.wf [(0, 1), (511, 2)] = true ∧ Memory.wf [] = true := by decide
theorem test_witness_OperandCountsAreFixed : mnemonicOf (firstToken "OUT R1, R2".toList) = some .out ∧
    operandCounts .out = some [0, 1] ∧ mnemonicOf (firstToken "print a: b".toList) = some .print ∧
    operandCounts .print = none := by decide
theorem test_witness_OperandTokensBecomeTheirValues : (∃ x : Char, x = 'x' ∨ x = 'X') ∧
    "1fF".toList.map Char.toLower = List.replicate 0 '0' ++ Nat.toDigits 16 511 ∧
    (addressOperand "0x1fF".toList).toOption = some 511 ∧ (addressOperand "0X200".toList).toOption = none :=
  ⟨⟨'x', .inl rfl⟩, by decide, by decide, by decide⟩
theorem test_witness_LoaderTranslatesEveryLine :
    (load "LDI 3\nPRINT x".toList).toOption = some ⟨[0x14000003, 0x80000000], ["x".toList]⟩ ∧
    (scan "LDI 3\nPRINT x".toList).program[1]? = some "PRINT x".toList := by decide
theorem test_witness_LoaderMakesOnlyWellFormedImages : (load "JMP END\nEND:".toList).toOption = some ⟨[0x54000001], []⟩ := by decide
theorem test_witness_LoadAnswers : (load "A: NOP\nB: HLT".toList).toOption = some ⟨[0x00000000, 0x7C000000], []⟩ ∧
    (load "A: NOP\nA: HLT".toList).toOption = none := by decide
/-- `IsTrimmed`, as a check that evaluates. -/
theorem isTrimmed_of_check {t : Text} (h : (t.head?.all (!isBlank ·) && t.getLast?.all (!isBlank ·)) = true) : IsTrimmed t := by
  simpa [IsTrimmed, Option.all_eq_true] using h

theorem test_witness_FirstPass_text : '\n' ∉ "\t".toList ++ "A: B: INC".toList ++ " ".toList ++ "; c".toList ∧
    (∀ c ∈ "\t".toList ++ " ".toList, isBlank c = true) ∧ IsTrimmed "A: B: INC".toList ∧ ';' ∉ "A: B: INC".toList ∧
    (∀ c ∈ "; c".toList.head?, c = ';') :=
  ⟨by decide, by simp [isBlank], isTrimmed_of_check (by decide), by decide, by simp⟩
theorem test_witness_FirstPass_clauses : "A: B: INC".toList = "A".toList ++ ':' :: " B: INC".toList ∧ ':' ∉ "A".toList ∧
    foldCase (firstToken "A: B: INC".toList) ≠ "PRINT".toList ∧ ':' ∉ "LDI 5".toList ∧ IsTrimmed "LDI 5".toList ∧
    foldCase (firstToken "print a: b".toList) = "PRINT".toList ∧ IsTrimmed "print a: b".toList ∧ IsTrimmed [] ∧
    '\n' ∉ "LDI 5".toList :=
  ⟨by decide, by decide, by decide, by decide, isTrimmed_of_check (by decide), by decide, isTrimmed_of_check (by decide),
    isTrimmed_of_check (by decide), by decide⟩
theorem test_witness_LinesAreSplit : (∀ c ∈ "LDRI".toList, isBlank c = false ∧ c ≠ ',') ∧
    (∀ p ∈ [(" ".toList, "R1".toList), (" ,".toList, "5".toList)], p.1 ≠ [] ∧ (∀ c ∈ p.1, isBlank c = true ∨ c = ',') ∧
      p.2 ≠ [] ∧ ∀ c ∈ p.2, isBlank c = false ∧ c ≠ ',') ∧ ∀ c ∈ ", ".toList, isBlank c = true ∨ c = ',' := by simp [isBlank]
theorem test_witness_WrongKind : IsRegisterToken ['R', '1', '6'] ∧ IsDecimal ['5', '1', '2'] ∧ IsAddressLiteral ['0', 'x', '1', 'F'] ∧
    ¬ IsDecimal ['1', 'a'] ∧ ¬ IsRegisterToken ['A'] :=
  ⟨⟨_, rfl, by simp [IsDecimal]⟩, by simp [IsDecimal], .inr ⟨_, _, rfl, .inl rfl, by simp [IsHex]⟩, by simp [IsDecimal],
    by simp [IsRegisterToken]⟩
theorem test_witness_EveryMnemonic_none : foldCase (firstToken "nop".toList) = "NOP".toList ∧ operandTokens "nop".toList = [] ∧
    foldCase (firstToken "Print x".toList) = "PRINT".toList := by decide
theorem test_witness_EveryMnemonic_one : operandTokens "ADD R1".toList = ["R1".toList] ∧ operandTokens "ADD 5".toList = ["5".toList] ∧
    foldCase (firstToken "Add 5".toList) = "ADD".toList ∧ foldCase (firstToken "OUT R9".toList) = "OUT".toList ∧
    foldCase (firstToken "LDA 5".toList) = "LDA".toList ∧ foldCase (firstToken "LDI 5".toList) = "LDI".toList ∧
    foldCase (firstToken "JZ L".toList) = "JZ".toList ∧ operandTokens "JZ L".toList = ["L".toList] := by decide
theorem test_witness_EveryMnemonic_two : operandTokens "MOV A, R1".toList = [['A'], "R1".toList] ∧
    operandTokens "MOV R1, A".toList = ["R1".toList, ['A']] ∧ operandTokens "MOV A, A".toList = [['A'], ['A']] ∧
    operandTokens "MOV R2, R7".toList = ["R2".toList, "R7".toList] ∧ foldCase (firstToken "MOV A, A".toList) = "MOV".toList ∧
    foldCase (firstToken "LDR R1, 5".toList) = "LDR".toList ∧ foldCase (firstToken "LDRI R1, 5".toList) = "LDRI".toList := by decide
theorem test_witness_BootRefuses : (∀ r ∈ opcodeTable, r.matchesWord 0xF8000000 = false) ∧
    decode 0x54000002 = .ok (.jmp 2) ∧ decode 0xFC00000A = .ok (.fault 10) ∧ decode 0x80000000 = .ok (.print 0) :=
  ⟨by decide, rfl, rfl, rfl⟩

end Sys2Proof.Tests
end

namespace Sys2Proof.Machine

/-!
# The architectural state (10_state.md)

One inversion lemma, `exec_effect`, says what an instruction can do to the state; the frame table, the rule
of Z and the invariant `State.Legal` are read off it. `exec_withFlags` says which flags an instruction reads.
-/

/-! ### What an instruction can do -/

/-- What an instruction that completes or faults has done from `s` to `t`: it wrote at most `w`, left PC at
`pc`, computed Z from A where it writes Z (10_state.md rule R22), entered a fault where FAULT is not as it
was (60_exceptions.md rule R115), and kept memory in its canonical form (20_memory.md rule R32). -/
structure Effect (w : Writes) (pc : Index) (s t : State) : Prop where
  frame : Frame w s t
  pc_eq : t.pc = pc
  zero : w.z = true → t.z = zeroFlag t.a
  fault : t.fault = s.fault ∨ ∃ k, t = takeFault k s
  memWf : Memory.wf s.mem = true → Memory.wf t.mem = true

/-- For an effect without a fault and without a store, the frame, PC and Z are what is left to show. -/
theorem Effect.of_frame {w : Writes} {pc : Index} {s t : State} (hframe : Frame w s t) (hpc : t.pc = pc)
    (hfault : w.fault = false) (hmem : t.mem = s.mem) (hz : w.z = true → t.z = zeroFlag t.a) :
    Effect w pc s t :=
  ⟨hframe, hpc, hz, .inl (hframe.fault hfault), fun hwf => hmem ▸ hwf⟩

theorem loadA_effect {o : Operand} {s t : State} (h : loadA o s = .next t) :
    Effect { a := true } (s.pc + 1) s t := by
  obtain ⟨-, hpc, hframe⟩ := loadA_spec h
  rw [loadA, done_next] at h
  exact .of_frame hframe hpc rfl (by simp [← h]) nofun

theorem loadReg_effect {n : RegIndex} {o : Operand} {s t : State} (h : loadReg n o s = .next t) :
    Effect { reg := some n } (s.pc + 1) s t := by
  obtain ⟨-, hpc, hframe⟩ := loadReg_spec h
  rw [loadReg, done_next] at h
  exact .of_frame hframe hpc rfl (by simp [← h]) nofun

theorem storeByte_effect {addr : Address} {o : Operand} {s t : State} (h : storeByte addr o s = .next t) :
    Effect { cell := some addr } (s.pc + 1) s t := by
  obtain ⟨-, hpc, hframe⟩ := storeByte_spec h
  rw [storeByte, done_next] at h
  exact ⟨hframe, hpc, nofun, .inl (hframe.fault rfl), fun hwf => h ▸ State.setByte_wf s hwf addr _⟩

theorem resultToA_effect {r : Byte} {s t : State} (h : resultToA r s = .next t) :
    Effect { a := true, z := true } (s.pc + 1) s t := by
  obtain ⟨ha, hz, hpc, hframe⟩ := resultToA_spec h
  rw [resultToA, done_next] at h
  exact .of_frame hframe hpc rfl (by simp [← h]) fun _ => ha ▸ hz

theorem addToA_effect {o : Operand} {s t : State} (h : addToA o s = .next t) :
    Effect { a := true, c := true, z := true } (s.pc + 1) s t := by
  obtain ⟨-, -, hz, hpc, hframe⟩ := addToA_spec h
  rw [addToA, done_next] at h
  exact .of_frame hframe hpc rfl (by simp [← h]) fun _ => hz

/-- SUB completes with a result in A, whether the result was drawn and counted or not (R89). -/
theorem execSub_next {addr : Address} {s t : State} (h : execSub addr s = .next t) :
    ∃ r, t = (s.setResult r).countDraw.advance ∨ t = (s.setResult r).advance := by
  simp only [execSub] at h
  split at h
  · exact ⟨_, .inl (done_next.1 h).symm⟩
  · exact ⟨_, .inr (done_next.1 h).symm⟩

theorem execSub_effect {addr : Address} {s t : State} (h : execSub addr s = .next t) :
    Effect { a := true, z := true, draws := true } (s.pc + 1) s t := by
  obtain ⟨r, rfl | rfl⟩ := execSub_next h
  all_goals
    refine .of_frame ?_ rfl rfl rfl fun _ => rfl
    constructor <;> simp

theorem jumpIf_effect {taken : Bool} {target : Index} {s t : State} (h : jumpIf taken target s = .next t) :
    Effect {} (if taken then target else s.pc + 1) s t := by
  obtain ⟨hpc, hframe⟩ := jumpIf_spec h
  refine .of_frame hframe hpc rfl ?_ nofun
  unfold jumpIf at h
  split at h
  · simp [← doneUpdated_next.1 h]
  · simp [← done_next.1 h]

/-- Fault entry (R115), whichever instruction raises the fault. -/
theorem raise_effect {k : FaultCause} {s t : State} (h : raise k s = .next t) :
    Effect .ofFault s.pc s t := by
  obtain rfl := raise_next.1 h
  exact ⟨(takeFault_frame k s).1, rfl, nofun, .inr ⟨k, rfl⟩, id⟩

/-- PUSH stores at SP or raises STACK_OVERFLOW (R106). -/
theorem execPush_effect {s t : State} (h : execPush s = .next t) :
    Effect (writesOf .push s) (pcAfter .push s) s t := by
  by_cases hsp : s.sp = 0
  · simp only [execPush, writesOf, pcAfter, if_pos hsp] at h ⊢
    exact raise_effect h
  · simp only [execPush, writesOf, pcAfter, if_neg hsp, done_next] at h ⊢
    subst h
    refine ⟨?_, rfl, nofun, .inl rfl, fun hwf => State.setByte_wf s hwf s.pushAddress s.a⟩
    constructor
    case byte => exact fun b hb => State.byte_setByte_ne s (fun e => hb (by rw [e])) s.a
    all_goals simp

/-- POP loads from the new SP or raises STACK_UNDERFLOW (R107). -/
theorem execPop_effect {s t : State} (h : execPop s = .next t) :
    Effect (writesOf .pop s) (pcAfter .pop s) s t := by
  by_cases hsp : s.sp = 511
  · simp only [execPop, writesOf, pcAfter, if_pos hsp] at h ⊢
    exact raise_effect h
  · simp only [execPop, writesOf, pcAfter, if_neg hsp, done_next] at h ⊢
    subst h
    refine .of_frame ?_ rfl rfl rfl nofun
    constructor <;> simp

/-- An instruction that emits one event and writes nothing else (R105). -/
theorem emit_effect {e : Event} {s t : State} (h : done (s.emit e) = .next t) :
    Effect { out := true } (s.pc + 1) s t := by
  obtain rfl := done_next.1 h
  refine .of_frame ?_ rfl rfl rfl nofun
  constructor <;> simp

/-- PRINT emits its event or raises PRINT_FAULT (R112). -/
theorem execPrint_effect {template : Index} {s t : State} (h : execPrint template s = .next t) :
    Effect (writesOf (.print template) s) (pcAfter (.print template) s) s t := by
  by_cases hp : printFaults template s = true
  · simp only [execPrint, writesOf, pcAfter, if_pos hp] at h ⊢
    exact raise_effect h
  · simp only [execPrint, writesOf, pcAfter, if_neg hp] at h ⊢
    exact emit_effect h

theorem execHlt_effect {s t : State} (h : execHlt s = .next t) : Effect { halt := true } s.pc s t := by
  obtain rfl := doneUpdated_next.1 h
  refine .of_frame ?_ rfl rfl rfl nofun
  constructor <;> simp

/-- A FAULT record that executes raises the cause it names (R113). -/
theorem execFault_effect {cause : BitVec 4} {s t : State} (h : execFault cause s = .next t) :
    Effect .ofFault s.pc s t := by
  unfold execFault at h
  split at h
  · exact raise_effect h
  · cases h

/-- NOP writes nothing (R76). -/
theorem execNop_effect {s t : State} (h : execNop s = .next t) : Effect {} (s.pc + 1) s t := by
  obtain rfl := done_next.1 h
  refine .of_frame ?_ rfl rfl rfl nofun
  constructor <;> simp

/-- JNZ is the jump taken where Z is clear (R102). -/
theorem pcAfter_jnz (target : Index) (s : State) :
    pcAfter (.jnz target) s = if !s.z then target else s.pc + 1 := by
  cases hz : s.z <;> simp [pcAfter, hz]

/-- JNC is the jump taken where C is clear (R104). -/
theorem pcAfter_jnc (target : Index) (s : State) :
    pcAfter (.jnc target) s = if !s.c then target else s.pc + 1 := by
  cases hc : s.c <;> simp [pcAfter, hc]

/-- What every instruction can do, by the tables `writesOf` and `pcAfter`. -/
theorem exec_effect {i : Instr} {s t : State} (h : exec i s = .next t) :
    Effect (writesOf i s) (pcAfter i s) s t := by
  cases i with
  | nop => exact execNop_effect h
  | lda _ | ldi _ | movRA _ => exact loadA_effect h
  | ldr _ _ | ldri _ _ | movRR _ _ | movAR _ => exact loadReg_effect h
  | sta _ | str _ _ => exact storeByte_effect h
  | addR _ | addM _ => exact addToA_effect h
  | sub _ => exact execSub_effect h
  | and _ | or _ | xor _ | not | inc | dec | rol | ror | inp => exact resultToA_effect h
  | jmp _ => exact jumpIf_effect (taken := true) h
  | jz _ | jc _ => exact jumpIf_effect h
  | jnz target => exact pcAfter_jnz target s ▸ jumpIf_effect h
  | jnc target => exact pcAfter_jnc target s ▸ jumpIf_effect h
  | push => exact execPush_effect h
  | pop => exact execPop_effect h
  | outA | outR _ => exact emit_effect h
  | hlt => exact execHlt_effect h
  | print _ => exact execPrint_effect h
  | fault _ => exact execFault_effect h

/-- Settles O42: the frame is one part of what every instruction can do. -/
theorem frameOfEveryInstruction : Obligations.FrameOfEveryInstruction :=
  fun _ _ _ h => (exec_effect h).frame

/-! ### Legal states -/

/-- An instruction that fits the image moves PC from a record of the program into 0..N: a jump's target is at
most N (30_encoding.md rule R67), and PC + 1 does not wrap, since N is at most 65535 (10_state.md rule R19). -/
theorem pcAfter_le {i : Instr} {s : State} {n k : Nat} (hpc : s.pc.toNat < n) (hn : n ≤ 65535)
    (hfits : i.fits n k = true) : (pcAfter i s).toNat ≤ n := by
  have hstay : s.pc.toNat ≤ n := hpc.le
  have hnext : (s.pc + 1).toNat ≤ n := by bv_omega
  cases i with
  | jmp target => exact of_decide_eq_true hfits
  | jz target | jnz target | jc target | jnc target =>
    have htarget : target.toNat ≤ n := of_decide_eq_true hfits
    simp only [pcAfter]
    split <;> assumption
  | push | pop | print template =>
    simp only [pcAfter]
    split <;> assumption
  | hlt | fault cause => exact hstay
  | _ => exact hnext

/-- A record of a well-formed image that decodes holds an instruction that fits the image (R67). -/
theorem fits_of_fetch {s : State} {w : Record} {i : Instr} (hwf : s.image.wf = true)
    (hw : s.fetch = some w) (hi : decode w = .ok i) :
    i.fits s.progLen s.image.templates.length = true := by
  obtain ⟨j, hj, -, hfits⟩ := (Image.wf_iff.1 hwf).2 w (List.mem_of_getElem? hw)
  obtain rfl : i = j := Except.ok.inj (hi.symm.trans hj)
  exact hfits

/-- Fault entry keeps a state legal: HALT is set with FAULT, and a cause's code is at most 9 (R25, R115). -/
theorem takeFault_legal {k : FaultCause} {s : State} (h : s.Legal) : (takeFault k s).Legal := by
  obtain ⟨hmem, himage, hpc, -, -⟩ := h
  exact ⟨hmem, himage, hpc, (causeCode_range k).2, fun _ => rfl⟩

/-- A core that is not stopped is not halted, and its PC selects a record (R71). -/
theorem State.running_iff (s : State) : s.stopped = false ↔ s.halt = false ∧ s.pc.toNat < s.progLen := by
  simp [State.stopped]

/-- Executing an instruction that fits the image keeps a running legal state legal. -/
theorem exec_legal {i : Instr} {s t : State} (hs : s.Legal) (hrun : s.stopped = false)
    (hfits : i.fits s.progLen s.image.templates.length = true) (h : exec i s = .next t) : t.Legal := by
  have heff := exec_effect h
  obtain hkept | ⟨k, rfl⟩ := heff.fault
  · obtain ⟨hmem, himage, -, -, hhalt⟩ := hs
    obtain ⟨hnothalt, hpc⟩ := s.running_iff.1 hrun
    have hfault : t.fault = 0 := by
      rw [hkept]
      by_contra hne
      simp [hhalt hne] at hnothalt
    have hpc' : t.pc.toNat ≤ s.progLen :=
      heff.pc_eq ▸ pcAfter_le hpc (Image.wf_iff.1 himage).1 hfits
    refine ⟨heff.memWf hmem, heff.frame.image ▸ himage, ?_, by simp [hfault], absurd hfault⟩
    rwa [State.progLen, heff.frame.image]
  · exact takeFault_legal hs

/-- Settles O45, by the three things a step can do. -/
theorem everyStepKeepsTheStateLegal : Obligations.EveryStepKeepsTheStateLegal := by
  intro s t hs h
  obtain ⟨-, rfl⟩ | ⟨hrun, w, i, hw, hi, hexec⟩ | ⟨-, w, e, -, -, rfl⟩ := step_cases h
  · exact hs
  · have ⟨_, himage, _⟩ := hs
    exact exec_legal hs hrun (fits_of_fetch himage hw hi) hexec
  · exact takeFault_legal hs

/-- Settles O46: memory and program are empty, PC is 0 and no fault is recorded. -/
theorem resetStateIsLegal : Obligations.ResetStateIsLegal :=
  ⟨Memory.wf_nil, rfl, Nat.le_refl 0, Nat.zero_le 9, absurd rfl⟩

/-! ### Flags -/

/-- The table of frames names Z for exactly the writers of Z (10_state.md rule R20); a fault is none of them. -/
theorem writesOf_z (i : Instr) (s : State) : (writesOf i s).z = writesZero i := by
  cases i with
  | push | pop | print template =>
    simp only [writesOf]
    split <;> rfl
  | _ => rfl

/-- The table of frames names C for exactly the writers of C (R20). -/
theorem writesOf_c (i : Instr) (s : State) : (writesOf i s).c = writesCarry i := by
  cases i with
  | push | pop | print template =>
    simp only [writesOf]
    split <;> rfl
  | _ => rfl

/-- An instruction that is no writer of Z keeps Z. -/
theorem exec_z_of_not_writesZero {i : Instr} {s t : State} (h : exec i s = .next t)
    (hi : writesZero i = false) : t.z = s.z :=
  (exec_effect h).frame.z ((writesOf_z i s).trans hi)

/-- Z after an instruction: what the instruction computed where it is a writer of Z, else the old Z. -/
theorem ite_writesZero {i : Instr} {s t : State} (h : exec i s = .next t) :
    (if writesZero i then t.z else s.z) = t.z := by
  cases hi : writesZero i with
  | true => rfl
  | false => exact (exec_z_of_not_writesZero h hi).symm

/-- C after an instruction: what the instruction computed where it is a writer of C, else the old C. -/
theorem ite_writesCarry {i : Instr} {s t : State} (h : exec i s = .next t) :
    (if writesCarry i then t.c else s.c) = t.c := by
  cases hi : writesCarry i with
  | true => rfl
  | false => exact ((exec_effect h).frame.c ((writesOf_c i s).trans hi)).symm

/-- Settles O29: the writers of Z compute it from the new A, and for all others it is in the frame. -/
theorem zeroIsAboutTheLastFlagWriter : Obligations.ZeroIsAboutTheLastFlagWriter :=
  fun i s _ h =>
    ⟨fun hi => (exec_effect h).zero ((writesOf_z i s).trans hi), exec_z_of_not_writesZero h⟩

/-- The state with both flags replaced. -/
def State.withFlags (s : State) (c z : Bool) : State := (s.setC c).setZ z

/-- A state with the flags it has. -/
@[simp] theorem State.withFlags_self (s : State) : s.withFlags s.c s.z = s := rfl

/-- No operand is a flag. -/
@[simp] theorem State.value_withFlags (s : State) (c z : Bool) (o : Operand) :
    (s.withFlags c z).value o = s.value o := by
  cases o <;> rfl

section
variable {s t : State} (c z : Bool)

theorem done_withFlags {u : State} (h : done u = .next t) : done (u.withFlags c z) = .next (t.withFlags c z) := by
  obtain rfl := done_next.1 h
  rfl

theorem raise_withFlags {k : FaultCause} (h : raise k s = .next t) :
    raise k (s.withFlags c z) = .next (t.withFlags c z) := by
  obtain rfl := raise_next.1 h
  rfl

theorem loadA_withFlags {o : Operand} (h : loadA o s = .next t) :
    loadA o (s.withFlags c z) = .next (t.withFlags c z) := by
  rw [loadA, State.value_withFlags]
  exact done_withFlags c z h

theorem loadReg_withFlags {n : RegIndex} {o : Operand} (h : loadReg n o s = .next t) :
    loadReg n o (s.withFlags c z) = .next (t.withFlags c z) := by
  rw [loadReg, State.value_withFlags]
  exact done_withFlags c z h

theorem storeByte_withFlags {addr : Address} {o : Operand} (h : storeByte addr o s = .next t) :
    storeByte addr o (s.withFlags c z) = .next (t.withFlags c z) := by
  rw [storeByte, State.value_withFlags]
  exact done_withFlags c z h

/-- A result in A overwrites Z. -/
theorem resultToA_withFlags {r : Byte} (h : resultToA r s = .next t) :
    resultToA r (s.withFlags c z) = .next (t.withFlags c t.z) := by
  obtain rfl := done_next.1 h
  rfl

/-- ADD overwrites both flags. -/
theorem addToA_withFlags {o : Operand} (h : addToA o s = .next t) :
    addToA o (s.withFlags c z) = .next (t.withFlags t.c t.z) := by
  rw [addToA, State.value_withFlags]
  obtain rfl := done_next.1 h
  rfl

/-- SUB overwrites Z, and neither its result nor whether it draws depends on a flag. -/
theorem execSub_withFlags {addr : Address} (h : execSub addr s = .next t) :
    execSub addr (s.withFlags c z) = .next (t.withFlags c t.z) := by
  simp only [execSub, State.value_withFlags] at h ⊢
  split at h
  · next hdraw =>
    obtain rfl := done_next.1 h
    exact if_pos hdraw
  · next hdraw =>
    obtain rfl := done_next.1 h
    exact if_neg hdraw

theorem jumpIf_withFlags {taken : Bool} {target : Index} (h : jumpIf taken target s = .next t) :
    jumpIf taken target (s.withFlags c z) = .next (t.withFlags c z) := by
  cases taken with
  | true =>
    obtain rfl := doneUpdated_next.1 h
    rfl
  | false => exact done_withFlags c z h

/-- PUSH and POP raise at their end of the stack and complete elsewhere (R106, R107). -/
theorem raiseOrDone_withFlags {p : Prop} [Decidable p] {k : FaultCause} {u : State}
    (h : (if p then raise k s else done u) = .next t) :
    (if p then raise k (s.withFlags c z) else done (u.withFlags c z)) = .next (t.withFlags c z) := by
  by_cases hp : p
  · rw [if_pos hp] at h ⊢
    exact raise_withFlags c z h
  · rw [if_neg hp] at h ⊢
    exact done_withFlags c z h

theorem execFault_withFlags {cause : BitVec 4} (h : execFault cause s = .next t) :
    execFault cause (s.withFlags c z) = .next (t.withFlags c z) := by
  unfold execFault at h ⊢
  split at h
  · exact raise_withFlags c z h
  · cases h

theorem execHlt_withFlags (h : execHlt s = .next t) :
    execHlt (s.withFlags c z) = .next (t.withFlags c z) := by
  obtain rfl := doneUpdated_next.1 h
  rfl

end

/-- Which flags an instruction reads and writes (R20). Where each flag is replaced only if the instruction
does not read it, the instruction does the same to everything else; a flag it writes it computes as before,
and a flag it does not write keeps the value put there. -/
theorem exec_withFlags {i : Instr} {s t : State} {c z : Bool} (hc : readsCarry i = false ∨ c = s.c)
    (hz : readsZero i = false ∨ z = s.z) (h : exec i s = .next t) :
    exec i (s.withFlags c z) =
      .next (t.withFlags (if writesCarry i then t.c else c) (if writesZero i then t.z else z)) := by
  cases i with
  | nop | outA | outR _ => exact done_withFlags c z h
  | lda _ | ldi _ | movRA _ => exact loadA_withFlags c z h
  | ldr _ _ | ldri _ _ | movRR _ _ | movAR _ => exact loadReg_withFlags c z h
  | sta _ | str _ _ => exact storeByte_withFlags c z h
  | addR _ | addM _ => exact addToA_withFlags c z h
  | sub _ => exact execSub_withFlags c z h
  | and _ | or _ | xor _ | not | inc | dec | rol | ror | inp => exact resultToA_withFlags c z h
  | jmp _ => exact jumpIf_withFlags c z (taken := true) h
  | jz _ | jnz _ =>
    obtain rfl : z = s.z := hz.resolve_left nofun
    exact jumpIf_withFlags c s.z h
  | jc _ | jnc _ =>
    obtain rfl : c = s.c := hc.resolve_left nofun
    exact jumpIf_withFlags s.c z h
  | push | pop => exact raiseOrDone_withFlags c z h
  | hlt => exact execHlt_withFlags c z h
  | print _ =>
    obtain rfl : c = s.c := hc.resolve_left nofun
    obtain rfl : z = s.z := hz.resolve_left nofun
    rwa [ite_writesCarry h, ite_writesZero h, State.withFlags_self, State.withFlags_self]
  | fault _ => exact execFault_withFlags c z h

/-- Settles O30: `exec_withFlags` with one flag replaced and the other as it was. -/
theorem flagsAreReadOnlyByTheirJumps : Obligations.FlagsAreReadOnlyByTheirJumps := by
  intro i s t b h
  constructor
  · intro hi
    have hflags := exec_withFlags (c := b) (z := s.z) (.inl hi) (.inr rfl) h
    rwa [ite_writesZero h] at hflags
  · intro hi
    have hflags := exec_withFlags (c := s.c) (z := b) (.inr rfl) (.inl hi) h
    rwa [ite_writesCarry h] at hflags

end Sys2Proof.Machine

namespace Sys2Proof.Machine

/-!
# Data memory (20_memory.md)

Memory is determined by what it reads as (`Memory.eq_of_read_eq`), and after any writes a byte is the last one
written to its address (`State.byte_setBytes`).
-/

/-! ### The canonical form (R32) -/

/-- At its first address a memory in the canonical form reads differently from any that starts above it: no
listed byte is what an unlisted cell holds. -/
theorem Memory.read_head_ne {lo b : Nat} {w : Byte} {m n : Memory}
    (hm : Memory.risingFrom lo ((b, w) :: m) = true) (hn : Memory.risingFrom (b + 1) n = true) :
    Memory.read ((b, w) :: m) b ≠ Memory.read n b := by
  obtain ⟨-, -, hw, -⟩ := Memory.risingFrom_cons.1 hm
  rwa [Memory.read_cons, if_pos rfl, Memory.read_below hn b.lt_succ_self]

/-- A memory in the canonical form that reads at `b` as one whose first address is `b` does not start above
`b`. -/
theorem Memory.head_le_of_read_eq {lo b c : Nat} {w v : Byte} {m n : Memory}
    (hm : Memory.risingFrom lo ((b, w) :: m) = true) (hn : Memory.risingFrom lo ((c, v) :: n) = true)
    (h : Memory.read ((b, w) :: m) b = Memory.read ((c, v) :: n) b) : c ≤ b := by
  obtain ⟨-, htail⟩ := Memory.risingFrom_cons.1 hn
  by_contra hlt
  exact Memory.read_head_ne hm (Memory.risingFrom_cons.2 ⟨by omega, htail⟩) h

/-- Memories in the canonical form above a bound are equal where they read alike from that bound up. -/
theorem Memory.eq_of_read_eq {lo : Nat} {m n : Memory} (hm : Memory.risingFrom lo m = true)
    (hn : Memory.risingFrom lo n = true)
    (h : ∀ a, lo ≤ a → a < memSize → Memory.read m a = Memory.read n a) : m = n := by
  induction m generalizing lo n with
  | nil =>
    cases n with
    | nil => rfl
    | cons e n =>
      obtain ⟨hlo, hc, -, -⟩ := Memory.risingFrom_cons.1 hn
      exact absurd (h e.1 hlo hc).symm (Memory.read_head_ne hn rfl)
  | cons e m ih =>
    obtain ⟨b, w⟩ := e
    obtain ⟨hlo, hb, -, hmtail⟩ := Memory.risingFrom_cons.1 hm
    cases n with
    | nil => exact absurd (h b hlo hb) (Memory.read_head_ne hm rfl)
    | cons e n =>
      obtain ⟨c, v⟩ := e
      obtain ⟨hlo', hc, -, hntail⟩ := Memory.risingFrom_cons.1 hn
      obtain rfl : b = c := Nat.le_antisymm
        (Memory.head_le_of_read_eq hn hm (h c hlo' hc).symm)
        (Memory.head_le_of_read_eq hm hn (h b hlo hb))
      obtain rfl : w = v := by simpa [Memory.read_cons] using h b hlo hb
      have htails : m = n := ih hmtail hntail fun a hla ha => by
        have hne : b ≠ a := by omega
        simpa [Memory.read_cons, hne] using h a (by omega) ha
      rw [htails]

/-- Settles O50: an address of 9 bits is any number below 512. -/
theorem memoriesThatReadAlikeAreEqual : Obligations.MemoriesThatReadAlikeAreEqual := by
  intro m n hm hn h
  exact Memory.eq_of_read_eq hm hn fun a _ ha => h (BitVec.ofNatLT a ha)

/-! ### A list of writes (R43) -/

/-- The writes `ws`, in order. -/
def State.setBytes (s : State) (ws : List (Address × Byte)) : State :=
  ws.foldl (fun t w => t.setByte w.1 w.2) s

/-- The last value that `ws` writes to an address. -/
def lastWrite (ws : List (Address × Byte)) (addr : Address) : Option Byte :=
  (ws.reverse.find? fun w => w.1 == addr).map Prod.snd

@[simp] theorem State.setBytes_nil (s : State) : s.setBytes [] = s := rfl

@[simp] theorem State.setBytes_concat (s : State) (ws : List (Address × Byte)) (w : Address × Byte) :
    s.setBytes (ws ++ [w]) = (s.setBytes ws).setByte w.1 w.2 := by
  simp [State.setBytes]

@[simp] theorem lastWrite_nil (addr : Address) : lastWrite [] addr = none := rfl

@[simp] theorem lastWrite_concat (ws : List (Address × Byte)) (w : Address × Byte) (addr : Address) :
    lastWrite (ws ++ [w]) addr = if w.1 = addr then some w.2 else lastWrite ws addr := by
  by_cases h : w.1 = addr <;> simp [lastWrite, h]

/-- Any writes keep the canonical form. -/
theorem State.setBytes_wf {s : State} (h : Memory.wf s.mem = true) (ws : List (Address × Byte)) :
    Memory.wf (s.setBytes ws).mem = true := by
  induction ws using List.reverseRecOn with
  | nil => exact h
  | append_singleton ws w ih =>
    rw [State.setBytes_concat]
    exact State.setByte_wf _ ih w.1 w.2

/-- A byte after any writes: the last one written to its address, or the byte before them. -/
theorem State.byte_setBytes {s : State} (h : Memory.wf s.mem = true) (ws : List (Address × Byte))
    (addr : Address) : (s.setBytes ws).byte addr = (lastWrite ws addr).getD (s.byte addr) := by
  induction ws using List.reverseRecOn with
  | nil => rfl
  | append_singleton ws w ih =>
    rw [State.setBytes_concat, lastWrite_concat, State.byte_setByte _ (State.setBytes_wf h ws), ih]
    split <;> rfl

/-- Settles O49: reset leaves memory empty, so every byte before the writes is 0 (10_state.md rule R29). -/
theorem memoryReadsTheLastWrite : Obligations.MemoryReadsTheLastWrite :=
  fun s ws addr => State.byte_setBytes (s := s.applyReset) Memory.wf_nil ws addr

end Sys2Proof.Machine

namespace Sys2Proof

/-!
# Records (30_encoding.md)

The encoder and the decoder are inverse to each other (rules R64 and R65), and the decoder accepts the words of
spec/opcode_table.json and no others (rule R69). A row of the table is compared with a word field by field
(`OpcodeRow.matchesWord_iff`).
-/

/-! ### Fields of v -/

/-- The low bits of a value that was widened are the value. -/
theorem extractLsb'_setWidth_low {w n : Nat} (x : BitVec w) (h : w ≤ n) :
    (x.setWidth n).extractLsb' 0 w = x := by
  apply BitVec.eq_of_getLsbD_eq
  intro i hi
  simp [hi]
  omega

/-- The bits above the width of a value that was widened are 0. -/
theorem extractLsb'_setWidth_high {w n k : Nat} (x : BitVec w) : (x.setWidth n).extractLsb' w k = 0 := by
  apply BitVec.eq_of_getLsbD_eq
  intro i hi
  simp

/-- Widening the low bits gives the value back where the bits above them are 0. -/
theorem setWidth_extractLsb'_low {w k : Nat} {x : BitVec (w + k)} (h : x.extractLsb' w k = 0) :
    (x.extractLsb' 0 w).setWidth (w + k) = x := by
  apply BitVec.eq_of_getLsbD_eq
  intro i hi
  by_cases hw : i < w
  · simp [hw, hi]
  · have hbit : (x.extractLsb' w k).getLsbD (i - w) = false := by
      rw [h, BitVec.ofNat_eq_ofNat, BitVec.getLsbD_zero]
    rw [BitVec.getLsbD_extractLsb', show w + (i - w) = i by omega, decide_eq_true (by omega), Bool.true_and] at hbit
    simp [hw, hbit]

/-- A mask of all bits selects the whole value. -/
theorem and_eq_self_of_allOnes {w : Nat} {x m : BitVec w} (hm : m = BitVec.allOnes w) : x &&& m = x := by
  rw [hm, BitVec.and_allOnes]

/-- A mask with 1 in every bit of a field selects 0 only where the field is 0. -/
theorem extractLsb'_of_and_eq_zero {n w k : Nat} {x m : BitVec n} (hm : m.extractLsb' w k = BitVec.allOnes k)
    (h : x &&& m = 0) : x.extractLsb' w k = 0 := by
  have hfield : (x &&& m).extractLsb' w k = 0 := by simp [h]
  rwa [BitVec.extractLsb'_and, hm, BitVec.and_allOnes] at hfield

/-- A mask that is 0 in the low bits selects 0 from a value that was widened. -/
theorem setWidth_and_eq_zero {n w : Nat} (x : BitVec w) {m : BitVec n} (hm : m.extractLsb' 0 w = 0) :
    x.setWidth n &&& m = 0 := by
  apply BitVec.eq_of_getLsbD_eq
  intro i hi
  rw [BitVec.getLsbD_and, BitVec.ofNat_eq_ofNat, BitVec.getLsbD_zero, Bool.and_eq_false_iff]
  by_cases hw : i < w
  · have hbit : (m.extractLsb' 0 w).getLsbD i = false := by rw [hm, BitVec.ofNat_eq_ofNat, BitVec.getLsbD_zero]
    rw [BitVec.getLsbD_extractLsb', decide_eq_true hw, Bool.true_and, Nat.zero_add] at hbit
    exact .inr hbit
  · rw [BitVec.getLsbD_setWidth, BitVec.getLsbD_of_ge x i (by omega), Bool.and_false]
    exact .inl rfl

/-! ### Decoding an encoded instruction -/

theorem Fields.withAddress_setWidth (tag : BitVec 6) (mk : Address → Instr) (addr : Address) :
    Fields.withAddress ⟨tag, 0, 0, 0, addr.setWidth 16⟩ mk = .ok (mk addr) := by
  simp [Fields.withAddress, Fields.require_eq_ok, extractLsb'_setWidth_low, extractLsb'_setWidth_high]

theorem Fields.withRegAddress_setWidth (tag : BitVec 6) (mk : RegIndex → Address → Instr) (n : RegIndex)
    (addr : Address) : Fields.withRegAddress ⟨tag, n, 0, 0, addr.setWidth 16⟩ mk = .ok (mk n addr) := by
  simp [Fields.withRegAddress, Fields.require_eq_ok, extractLsb'_setWidth_low, extractLsb'_setWidth_high]

theorem Fields.withImmediate_setWidth (tag : BitVec 6) (mk : Byte → Instr) (imm : Byte) :
    Fields.withImmediate ⟨tag, 0, 0, 0, imm.setWidth 16⟩ mk = .ok (mk imm) := by
  simp [Fields.withImmediate, Fields.require_eq_ok, extractLsb'_setWidth_low, extractLsb'_setWidth_high]

theorem Fields.withRegImmediate_setWidth (tag : BitVec 6) (mk : RegIndex → Byte → Instr) (n : RegIndex)
    (imm : Byte) : Fields.withRegImmediate ⟨tag, n, 0, 0, imm.setWidth 16⟩ mk = .ok (mk n imm) := by
  simp [Fields.withRegImmediate, Fields.require_eq_ok, extractLsb'_setWidth_low, extractLsb'_setWidth_high]

theorem Fields.withCause_setWidth (tag : BitVec 6) (mk : BitVec 4 → Instr) (cause : BitVec 4) :
    Fields.withCause ⟨tag, 0, 0, 0, cause.setWidth 16⟩ mk = .ok (mk cause) := by
  simp [Fields.withCause, Fields.require_eq_ok, extractLsb'_setWidth_low, extractLsb'_setWidth_high]

/-- The fields of an instruction's record decode to it. Where an operand fills its field this is by evaluation;
an address, an immediate or a cause fills only the low bits of v. -/
theorem decodeFields_encodeFields (i : Instr) : decodeFields (encodeFields i) = .ok i := by
  cases i with
  | lda addr | sta addr | addM addr | sub addr | and addr | or addr | xor addr =>
    exact Fields.withAddress_setWidth _ _ addr
  | ldr n addr | str n addr => exact Fields.withRegAddress_setWidth _ _ n addr
  | ldi imm => exact Fields.withImmediate_setWidth _ _ imm
  | ldri n imm => exact Fields.withRegImmediate_setWidth _ _ n imm
  | fault cause => exact Fields.withCause_setWidth _ _ cause
  | _ => rfl

/-- Settles O2: the layout of the fields is a bijection, and the fields decode to the instruction. -/
theorem decodeOfEncodeIsTheInstruction : Obligations.DecodeOfEncodeIsTheInstruction :=
  fun i => (decode_encode_eq i).trans (decodeFields_encodeFields i)

/-- Settles O1: each word is the encoding of its instruction. -/
theorem decodesWrittenWords : Obligations.DecodesWrittenWords :=
  ⟨rfl, rfl, rfl, rfl, rfl, rfl, rfl, rfl, rfl, rfl, rfl, rfl, rfl⟩

/-! ### Encoding a decoded word -/

/-- Fields that decode are the fields of the instruction: the tag gives the form, and the form requires every
field that it does not use to be 0. -/
theorem encodeFields_of_decodeFields {f : Fields} {i : Instr} (h : decodeFields f = .ok i) :
    encodeFields i = f := by
  obtain ⟨tag, ra, rb, zero, v⟩ := f
  unfold decodeFields at h
  split at h
  case h_35 => cases h
  all_goals
    rename_i htag
    have htag' : BitVec.ofNat 6 tag.toNat = _ := congrArg _ htag
    rw [BitVec.ofNat_toNat, BitVec.setWidth_eq] at htag'
    obtain ⟨hunused, rfl⟩ := Fields.require_eq_ok.1 h
    simp only [Bool.and_eq_true, beq_iff_eq] at hunused
    simp [encodeFields, hunused, htag', @setWidth_extractLsb'_low 9 7, @setWidth_extractLsb'_low 8 8,
      @setWidth_extractLsb'_low 4 12]

/-- Settles O3: no two words have the same fields, so it is enough that the fields come back. -/
theorem encodeOfDecodeIsTheWord : Obligations.EncodeOfDecodeIsTheWord := by
  intro w i h
  rw [encode, encodeFields_of_decodeFields h, Fields.toWord_ofWord]

/-! ### The opcode table -/

/-- The fields of `f` under the mask `m`. -/
def Fields.and (f m : Fields) : Fields :=
  ⟨f.tag &&& m.tag, f.ra &&& m.ra, f.rb &&& m.rb, f.zero &&& m.zero, f.v &&& m.v⟩

theorem Fields.ofWord_and (w m : Record) : Fields.ofWord (w &&& m) = (Fields.ofWord w).and (Fields.ofWord m) := by
  simp only [Fields.ofWord, Fields.and, BitVec.extractLsb'_and]

theorem Fields.ofWord_inj {w u : Record} : Fields.ofWord w = Fields.ofWord u ↔ w = u := by
  refine ⟨fun h => ?_, congrArg _⟩
  rw [← Fields.toWord_ofWord w, h, Fields.toWord_ofWord]

/-- A word is a row's exactly where its fields under the mask's are the pattern's. -/
theorem OpcodeRow.matchesWord_iff {r : OpcodeRow} {w : Record} :
    r.matchesWord w = true ↔ (Fields.ofWord w).and (Fields.ofWord r.mask) = Fields.ofWord r.pattern := by
  rw [OpcodeRow.matchesWord, beq_iff_eq, ← Fields.ofWord_and, Fields.ofWord_inj]

/-- The record of an instruction matches the instruction's row: the mask leaves out the operands. -/
theorem row_matchesWord_encode (i : Instr) :
    ∃ r, opcodeTable[i.row]? = some r ∧ r.matchesWord (encode i) = true := by
  simp only [OpcodeRow.matchesWord_iff, ofWord_encode]
  cases i
  all_goals
    refine ⟨_, rfl, ?_⟩
    simp [Fields.and, encodeFields, Fields.ofWord, setWidth_and_eq_zero]

/-- A word that matches a row decodes to an instruction of that row: under the row's mask the tag is all there,
and so is every field that the row's form requires to be 0. -/
theorem decode_of_matchesWord {k : Nat} {r : OpcodeRow} {w : Record} (hr : opcodeTable[k]? = some r)
    (h : r.matchesWord w = true) : ∃ i, decode w = .ok i ∧ i.row = k := by
  rw [OpcodeRow.matchesWord_iff] at h
  rw [decode]
  generalize Fields.ofWord w = f at h ⊢
  have hk : k < 34 := (List.getElem?_eq_some_iff.1 hr).1
  interval_cases k
  all_goals
    obtain rfl := Option.some.inj hr
    simp only [Fields.and, Fields.ofWord, BitVec.ofNat_eq_ofNat, BitVec.reduceExtractLsb', BitVec.reduceAllOnes,
      and_eq_self_of_allOnes, Fields.mk.injEq] at h
    simp only [decodeFields, h, BitVec.toNat_ofNat, Nat.reducePow, Nat.reduceMod]
    exact ⟨_, Fields.require_eq_ok.2 ⟨by simp [h, extractLsb'_of_and_eq_zero (m := 0xFE00#16) (w := 9) (k := 7),
      extractLsb'_of_and_eq_zero (m := 0xFF00#16) (w := 8) (k := 8),
      extractLsb'_of_and_eq_zero (m := 0xFFF0#16) (w := 4) (k := 12)], rfl⟩, rfl⟩

/-- Settles O4: a word that decodes is the record of its instruction, which matches the instruction's row. -/
theorem decoderAgreesWithTheOpcodeTable : Obligations.DecoderAgreesWithTheOpcodeTable := by
  refine fun w => ⟨fun i hi => ?_, fun k r hr h => decode_of_matchesWord hr h⟩
  rw [← encodeOfDecodeIsTheWord w i hi]
  exact row_matchesWord_encode i

/-- A word decodes exactly where it matches a row of the table (R69). -/
theorem decode_eq_ok_iff_row {w : Record} :
    (∃ i, decode w = .ok i) ↔ ∃ r ∈ opcodeTable, r.matchesWord w = true := by
  constructor
  · rintro ⟨i, hi⟩
    obtain ⟨r, hr, h⟩ := (decoderAgreesWithTheOpcodeTable w).1 i hi
    exact ⟨r, List.mem_of_getElem? hr, h⟩
  · rintro ⟨r, hr, h⟩
    obtain ⟨k, hk⟩ := List.mem_iff_getElem?.1 hr
    obtain ⟨i, hi, -⟩ := decode_of_matchesWord hk h
    exact ⟨i, hi⟩

end Sys2Proof

namespace Sys2Proof.Machine

/-!
# Illegal records and ill-formed images (30_encoding.md)

What executing an illegal record does (rule R69), and which images boot refuses (rule R67 with decision D28, as
log entries 9 and 10 read them).
-/

/-! ### Illegal records -/

/-- A token whose upper case is no spelling of the table is no mnemonic (R54). -/
theorem mnemonicOf_eq_none {token : Text} (h : ∀ e ∈ mnemonicTable, e.1 ≠ foldCase token) :
    mnemonicOf token = none :=
  List.lookup_eq_none_iff.2 fun e he => bne_iff_ne.2 (h e he).symm

/-- The FAULT record of a cause raises it (R113). -/
theorem exec_fault_causeCode (k : FaultCause) (s : State) : exec (.fault (causeCode k)) s = raise k s := by
  simp [exec, execFault]

/-- A FAULT record whose code names no cause is refused (log entry 9). -/
theorem exec_fault_of_causeOfCode_eq_none {c : BitVec 4} (h : causeOfCode c = none) (s : State) :
    exec (.fault c) s = .refused (.illFormedFaultRecord c) := by
  simp [exec, execFault, h]

/-- A word that matches no row of the table does not decode (R69). -/
theorem decode_eq_error_of_no_row {w : Record} (h : ∀ r ∈ opcodeTable, r.matchesWord w = false) :
    ∃ e, decode w = .error e := by
  cases hw : decode w with
  | error e => exact ⟨e, rfl⟩
  | ok i =>
    obtain ⟨r, hr, hmatch⟩ := decode_eq_ok_iff_row.1 ⟨i, hw⟩
    simp [h r hr] at hmatch

/-- Settles O5, at the text level by the lookup in the mnemonic table, at the record level by the opcode table. -/
theorem illegalEncodingsRaiseUnknownOpcode : Obligations.IllegalEncodingsRaiseUnknownOpcode := by
  refine ⟨fun labels l h => ?_, exec_fault_causeCode _, fun s w hhalt hw h => ?_⟩
  · simp [decodeLine, mnemonicOf_eq_none h]
  · have hrun : s.stopped = false := s.running_iff.2 ⟨hhalt, (List.getElem?_eq_some_iff.1 hw).1⟩
    obtain ⟨e, he⟩ := decode_eq_error_of_no_row h
    obtain ⟨hframe, hpc⟩ := takeFault_frame .unknownOpcode s
    exact ⟨_, step_of_illegal hrun hw he, rfl, rfl, hpc, hframe⟩

/-- The codes outside 1 to 9 are 0 and those from 10 on. -/
theorem reservedCode_iff {c : BitVec 4} : ¬ (1 ≤ c.toNat ∧ c.toNat ≤ 9) ↔ c = 0 ∨ 10 ≤ c.toNat := by
  rw [← BitVec.toNat_inj, show (0 : BitVec 4).toNat = 0 from rfl]
  omega

/-- Settles O16: no cause has a code of 0 or above 9 (10_state.md rule R25). -/
theorem reservedCauseIsRefused : Obligations.ReservedCauseIsRefused := by
  intro c s hc
  refine exec_fault_of_causeOfCode_eq_none ?_ s
  rw [← reservedCode_iff] at hc
  simpa [← Option.not_isSome_iff_eq_none, causeOfCode_isSome] using hc

/-! ### Boot -/

/-- The state that boot presents is legal where the image is well-formed: the rest is the reset state (R130). -/
theorem presented_legal {m : Image} (h : m.wf = true) (p : Params) (v : Byte) (k : Nat) :
    (presented p v m k).Legal :=
  ⟨Memory.wf_nil, h, Nat.zero_le _, Nat.zero_le _, absurd rfl⟩

/-- Settles O47: boot presents the image where it is well-formed, and nothing otherwise. -/
theorem bootGivesALegalState : Obligations.BootGivesALegalState := by
  refine fun p v m k => ⟨fun s hs => ?_, boot_eq_none⟩
  obtain ⟨hwf, rfl⟩ := boot_eq_some.1 hs
  exact ⟨presented_legal hwf p v k, rfl, rfl, rfl⟩

/-- What makes an instruction ill-formed in an image of `n` records and `t` templates: only a jump, a FAULT record
or a PRINT can be (R67, log entry 9). -/
theorem Instr.not_wf_fits_iff {n t : Nat} (i : Instr) : ¬ (i.wf = true ∧ i.fits n t = true) ↔
    (∃ target : Index, n < target.toNat ∧
      ∃ mk ∈ [Instr.jmp, Instr.jz, Instr.jnz, Instr.jc, Instr.jnc], i = mk target) ∨
    (∃ c : BitVec 4, (c = 0 ∨ 10 ≤ c.toNat) ∧ i = .fault c) ∨
    (∃ template : Index, t ≤ template.toNat ∧ i = .print template) := by
  cases i with
  | jmp target | jz target | jnz target | jc target | jnc target => simp [Instr.wf, Instr.fits]
  | fault c =>
    simpa [Instr.wf, Instr.fits] using reservedCode_iff (c := c)
  | print template => simp [Instr.wf, Instr.fits]
  | _ => simp [Instr.wf, Instr.fits]

/-- Settles O60, record by record: a word that matches no row does not decode. -/
theorem bootRefusesExactlyTheIllFormedImages : Obligations.BootRefusesExactlyTheIllFormedImages := by
  intro p v m k
  rw [boot_eq_none, ← Bool.not_eq_true, Image.wf_iff, not_and_or, not_le]
  simp only [not_forall, exists_prop]
  refine or_congr_right (exists_congr fun w => and_congr_right fun _ => ?_)
  have hrows : (∀ r ∈ opcodeTable, r.matchesWord w = false) ↔ ¬ ∃ i, decode w = .ok i := by
    simp [decode_eq_ok_iff_row]
  rw [hrows]
  cases hw : decode w with
  | error e => simp
  | ok i => simpa using Instr.not_wf_fits_iff i

end Sys2Proof.Machine

namespace Sys2Proof.Machine

/-!
# Source text (30_encoding.md)

How a line is split into tokens (rule R54), what the first pass makes of a source line (rule R49), and which
sources have an image (rules R51 to R53).
-/

/-! ### Tokens -/

theorem isSeparator_eq_false {c : Char} : isSeparator c = false ↔ isBlank c = false ∧ c ≠ ',' := by
  simp [isSeparator]

theorem isSeparator_eq_true {c : Char} : isSeparator c = true ↔ isBlank c = true ∨ c = ',' := by
  simp [isSeparator]

/-- The text begins with a separator, where it is not empty: a token before it ends there. -/
abbrev EndsToken (rest : Text) : Prop := ∀ c ∈ rest.head?, isSeparator c = true

/-- The opcode token ends where the separators begin. -/
theorem firstToken_append {token rest : Text} (ht : ∀ c ∈ token, isSeparator c = false) (hr : EndsToken rest) :
    firstToken (token ++ rest) = token := by
  rw [firstToken, List.takeWhile_append_of_pos (by simpa using ht)]
  cases rest with
  | nil => simp
  | cons c cs => simp [hr c rfl]

theorem afterToken_append {token rest : Text} (ht : ∀ c ∈ token, isSeparator c = false) (hr : EndsToken rest) :
    afterToken (token ++ rest) = rest := by
  rw [afterToken, List.dropWhile_append_of_pos (by simpa using ht)]
  cases rest with
  | nil => simp
  | cons c cs => simp [hr c rfl]

/-- Separators between tokens are dropped. -/
theorem splitTokens_separators {seps : Text} (h : ∀ c ∈ seps, isSeparator c = true) (rest : Text) :
    splitTokens [] (seps ++ rest) = splitTokens [] rest := by
  induction seps with
  | nil => rfl
  | cons c cs ih =>
    obtain ⟨hc, hcs⟩ := List.forall_mem_cons.1 h
    simp [splitTokens, hc, ih hcs]

/-- Other characters go to the piece being read. -/
theorem splitTokens_token {token : Text} (h : ∀ c ∈ token, isSeparator c = false) (acc rest : Text) :
    splitTokens acc (token ++ rest) = splitTokens (acc ++ token) rest := by
  induction token generalizing acc with
  | nil => simp
  | cons c cs ih =>
    obtain ⟨hc, hcs⟩ := List.forall_mem_cons.1 h
    simp [splitTokens, hc, ih hcs]

/-- A piece that is not empty is a token where a separator or the end follows. -/
theorem splitTokens_endsToken {acc rest : Text} (hacc : acc ≠ []) (hr : EndsToken rest) :
    splitTokens acc rest = acc :: splitTokens [] rest := by
  cases rest with
  | nil => simp [splitTokens, hacc]
  | cons c cs => simp [splitTokens, hacc, hr c rfl]

/-- Operand tokens, each after a run of separators. -/
abbrev operandText (operands : List (Text × Text)) : Text := operands.flatMap fun p => p.1 ++ p.2

/-- An operand token after its run of separators: neither is empty. -/
abbrev IsOperand (p : Text × Text) : Prop :=
  p.1 ≠ [] ∧ (∀ c ∈ p.1, isSeparator c = true) ∧ p.2 ≠ [] ∧ ∀ c ∈ p.2, isSeparator c = false

theorem endsToken_operandText {operands : List (Text × Text)} {trailing : Text}
    (ho : ∀ p ∈ operands, IsOperand p) (ht : ∀ c ∈ trailing, isSeparator c = true) :
    EndsToken (operandText operands ++ trailing) := by
  cases operands with
  | nil => exact fun c hc => ht c (List.mem_of_mem_head? hc)
  | cons p ps =>
    obtain ⟨hne, hsep, -, -⟩ := ho p List.mem_cons_self
    obtain ⟨c, cs, hp⟩ := List.exists_cons_of_ne_nil hne
    simpa [EndsToken, hp] using hsep c (by simp [hp])

theorem splitTokens_operandText {operands : List (Text × Text)} {trailing : Text}
    (ho : ∀ p ∈ operands, IsOperand p) (ht : ∀ c ∈ trailing, isSeparator c = true) :
    splitTokens [] (operandText operands ++ trailing) = operands.map Prod.snd := by
  induction operands with
  | nil => simpa [splitTokens] using splitTokens_separators ht []
  | cons p ps ih =>
    obtain ⟨hp, hps⟩ := List.forall_mem_cons.1 ho
    obtain ⟨-, hsep, hne, htoken⟩ := hp
    calc splitTokens [] (operandText (p :: ps) ++ trailing)
        = splitTokens [] (p.1 ++ (p.2 ++ (operandText ps ++ trailing))) := by simp
      _ = splitTokens p.2 (operandText ps ++ trailing) := by
        rw [splitTokens_separators hsep, splitTokens_token htoken, List.nil_append]
      _ = p.2 :: splitTokens [] (operandText ps ++ trailing) :=
        splitTokens_endsToken hne (endsToken_operandText hps ht)
      _ = (p :: ps).map Prod.snd := by rw [ih hps, List.map_cons]

/-- Settles O57: the opcode token ends at the first run, and each run ends the token before it. -/
theorem linesAreSplitAtSeparatorRuns : Obligations.LinesAreSplitAtSeparatorRuns := by
  intro opcode operands trailing hopcode htrailing hoperands
  simp only [← isSeparator_eq_false, ← isSeparator_eq_true] at hopcode htrailing hoperands
  have hends := endsToken_operandText hoperands htrailing
  rw [List.append_assoc, operandTokens, afterToken_append hopcode hends]
  exact ⟨firstToken_append hopcode hends, splitTokens_operandText hoperands htrailing⟩

/-! ### Which sources have an image -/

/-- A label name is well-formed where it is not empty and holds none of the characters R51 names. -/
theorem labelNameWf_iff {name : Text} : labelNameWf name = true ↔
    name ≠ [] ∧ ∀ c ∈ name, isBlank c = false ∧ c ≠ ',' ∧ c ≠ ':' ∧ c ≠ ';' := by
  simp [labelNameWf, isSeparator, and_assoc]

/-- What the loader answers: the translation of the first pass's program, or a refusal for a label name, a name
defined twice or the length (R51, R53). -/
theorem load_eq_ok {source : Text} {m : Image} : load source = .ok m ↔
    (∀ e ∈ (scan source).labels, labelNameWf e.1 = true) ∧ ((scan source).labels.map Prod.fst).Nodup ∧
      (scan source).program.length ≤ 65535 ∧
      translateLines (scan source).labels 0 (scan source).program = m := by
  rw [← namesDistinct_iff, ← List.all_eq_true, load]
  split_ifs with hnames hdistinct hlong
  · simp_all
  · simp_all
  · simp_all
  · rw [Bool.not_eq_true', Bool.not_eq_false] at hnames hdistinct
    exact ⟨fun h => ⟨hnames, hdistinct, not_lt.1 hlong, Except.ok.inj h⟩, fun h => congrArg _ h.2.2.2⟩

/-- Settles O55: an image is refused on no other ground than these. -/
theorem loadAnswersExactlyTheWellFormedSources : Obligations.LoadAnswersExactlyTheWellFormedSources := by
  intro source
  simp only [load_eq_ok, labelNameWf_iff, exists_and_left, exists_eq', and_true]

/-! ### The first pass -/

/-- Blanks before a text that does not begin with one are dropped. -/
theorem dropWhile_isBlank_append {blanks text : Text} (hb : ∀ c ∈ blanks, isBlank c = true)
    (ht : ∀ c ∈ text.head?, isBlank c = false) : (blanks ++ text).dropWhile isBlank = text := by
  rw [List.dropWhile_append_of_pos hb]
  cases text with
  | nil => rfl
  | cons c cs => simp [ht c rfl]

theorem trimEnd_append {text blanks : Text} (hb : ∀ c ∈ blanks, isBlank c = true)
    (ht : ∀ c ∈ text.getLast?, isBlank c = false) : trimEnd (text ++ blanks) = text := by
  rw [trimEnd, List.reverse_append, dropWhile_isBlank_append (by simpa using hb) (by simpa using ht),
    List.reverse_reverse]

/-- Trimming gives back a trimmed text from between blanks. -/
theorem trim_append {before text after : Text} (hb : ∀ c ∈ before ++ after, isBlank c = true)
    (ht : IsTrimmed text) : trim (before ++ text ++ after) = text := by
  obtain ⟨hbefore, hafter⟩ := List.forall_mem_append.1 hb
  cases text with
  | nil =>
    have hnone : (before ++ after).dropWhile isBlank = [] := by
      simpa using dropWhile_isBlank_append hb (text := []) (by simp)
    simp [trim, trimEnd, hnone]
  | cons c cs =>
    rw [trim, List.append_assoc, dropWhile_isBlank_append hbefore (by simpa using ht.1), trimEnd_append hafter ht.2]

theorem stripComment_append {body comment : Text} (hb : ';' ∉ body) (hc : ∀ c ∈ comment.head?, c = ';') :
    stripComment (body ++ comment) = body := by
  rw [stripComment, List.takeWhile_append_of_pos (by simpa using fun c hc => ne_of_mem_of_not_mem hc hb)]
  cases comment with
  | nil => simp
  | cons c cs => simp [hc c rfl]

/-- A label is split off at the first colon. -/
theorem splitLabel_append {name : Text} (h : ':' ∉ name) (rest : Text) :
    splitLabel (name ++ ':' :: rest) = some (name, rest) := by
  have hname : ∀ c ∈ name, (c != ':') = true := fun c hc => bne_iff_ne.2 (ne_of_mem_of_not_mem hc h)
  simp [splitLabel, List.takeWhile_append_of_pos hname, List.dropWhile_append_of_pos hname]

/-- A token is the mnemonic PRINT exactly where its upper case is its spelling. -/
theorem mnemonicOf_eq_print {token : Text} :
    mnemonicOf token = some .print ↔ foldCase token = "PRINT".toList := by
  refine ⟨fun h => ?_, fun h => by rw [mnemonicOf, h]; rfl⟩
  obtain ⟨l₁, l₂, htable, -⟩ := List.lookup_eq_some_iff.1 h
  have hmem : (foldCase token, Mnemonic.print) ∈ mnemonicTable := by rw [htable]; simp
  simpa [mnemonicTable] using hmem

section
variable {p : Listing} {source text : Text} (htext : trim (stripComment source) = text)
include htext

/-- A line with no text does nothing. -/
theorem scanLine_empty (h : text = []) : scanLine p source = p := by
  simp [scanLine, htext, h]

/-- A print line, or a text with no colon, is one more line of the program. -/
theorem scanLine_line (h : text ≠ []) (hline : foldCase (firstToken text) = "PRINT".toList ∨ ':' ∉ text) :
    scanLine p source = p.append text := by
  rw [← mnemonicOf_eq_print] at hline
  rcases hline with hline | hline <;> simp [scanLine, htext, h, hline, splitLabel]

/-- Any other text defines a label, and what follows the colon, where not empty, is one more line. -/
theorem scanLine_label {name rest : Text} (h : text = name ++ ':' :: rest) (hname : ':' ∉ name)
    (hprint : foldCase (firstToken text) ≠ "PRINT".toList) :
    scanLine p source = ⟨p.program ++ (if trim rest = [] then [] else [trim rest]),
      p.labels ++ [(trim name, p.program.length)]⟩ := by
  rw [ne_eq, ← mnemonicOf_eq_print] at hprint
  have hsplit : splitLabel text = some (name, rest) := h ▸ splitLabel_append hname rest
  have hne : text ≠ [] := by simp [h]
  by_cases hrest : trim rest = [] <;>
    simp [scanLine, htext, hne, hprint, hsplit, hrest, Listing.define, Listing.append]

end


theorem scan_nil : scan [] = ⟨[], []⟩ := rfl

/-- The first line of a source is read as a line after an empty one. -/
theorem scan_newline_cons {line : Text} (h : '\n' ∉ line) : scan line = scan ('\n' :: line) := by
  have hline : scan line = scanLine ⟨[], []⟩ line := by
    rw [scan, splitLines_of_no_newline h, List.foldl_cons, List.foldl_nil]
  rw [hline, ← scan_nil, ← scan_append_newline [] h, List.nil_append]

/-- A text with blanks around it and a comment after it: the text is what the first pass reads. -/
theorem trim_stripComment {before text after comment : Text} (hblank : ∀ c ∈ before ++ after, isBlank c = true)
    (htrimmed : IsTrimmed text) (hsemi : ';' ∉ text) (hcomment : ∀ c ∈ comment.head?, c = ';') :
    trim (stripComment (before ++ text ++ after ++ comment)) = text := by
  have hnot : ∀ c, isBlank c = true → c ≠ ';' := by rintro c hc rfl; exact absurd hc (by decide)
  have hbody : ';' ∉ before ++ text ++ after := by
    simp only [List.mem_append, not_or] at hblank ⊢
    exact ⟨⟨fun h => hnot _ (hblank _ (.inl h)) rfl, hsemi⟩, fun h => hnot _ (hblank _ (.inr h)) rfl⟩
  rw [stripComment_append hbody hcomment, trim_append hblank htrimmed]

/-- Settles O56: the comment and the blanks are dropped, and the text left decides (`scanLine`). -/
theorem firstPassTakesLineByLine : Obligations.FirstPassTakesLineByLine := by
  refine ⟨scan_nil, fun _ => scan_newline_cons, ?_⟩
  intro source before text after comment hnl hblank htrimmed hsemi hcomment
  have htext := trim_stripComment hblank htrimmed hsemi hcomment
  rw [scan_append_newline source hnl]
  exact ⟨scanLine_empty htext, scanLine_line htext, fun name rest => scanLine_label htext⟩

end Sys2Proof.Machine

namespace Sys2Proof.Machine

/-!
# Operand tokens (30_encoding.md)

Which characters are digits and what a digit string is worth (rule R55), which tokens are of the wrong kind (rule
R57), and what a token of the right kind becomes (rule R56).
-/

/-! ### Digits -/

/-- The value of a digit by the code of its character. -/
theorem digitValue_eq (base : Nat) (c : Char) : digitValue base c =
    (if 48 ≤ c.toNat ∧ c.toNat ≤ 57 then some (c.toNat - 48)
      else if 97 ≤ c.toNat ∧ c.toNat ≤ 102 then some (c.toNat - 87)
      else if 65 ≤ c.toNat ∧ c.toNat ≤ 70 then some (c.toNat - 55)
      else none).filter (· < base) := by
  simp only [digitValue, Char.le_def, UInt32.le_iff_toNat_le]
  congr 1
  change (if 48 ≤ c.toNat ∧ c.toNat ≤ 57 then some (c.toNat - 48)
      else if 97 ≤ c.toNat ∧ c.toNat ≤ 102 then some (c.toNat - 97 + 10)
      else if 65 ≤ c.toNat ∧ c.toNat ≤ 70 then some (c.toNat - 65 + 10)
      else none) = _
  split_ifs <;> simp <;> omega

theorem isDigit_iff {c : Char} : c.isDigit = true ↔ 48 ≤ c.toNat ∧ c.toNat ≤ 57 := by
  simp [Char.isDigit, UInt32.le_iff_toNat_le]

/-- The decimal digits are 0 to 9. -/
theorem digitValue_ten_isSome {c : Char} : (digitValue 10 c).isSome = true ↔ c.isDigit = true := by
  rw [digitValue_eq, isDigit_iff]
  split_ifs <;> simp [Option.filter] <;> omega

/-- The hex digits are the decimal digits and the letters a to f in either case. -/
theorem digitValue_sixteen_isSome {c : Char} : (digitValue 16 c).isSome = true ↔
    c.isDigit = true ∨ ('a' ≤ c ∧ c ≤ 'f') ∨ ('A' ≤ c ∧ c ≤ 'F') := by
  rw [digitValue_eq, isDigit_iff]
  simp only [Char.le_def, UInt32.le_iff_toNat_le]
  change _ ↔ _ ∨ (97 ≤ c.toNat ∧ c.toNat ≤ 102) ∨ (65 ≤ c.toNat ∧ c.toNat ≤ 70)
  split_ifs <;> simp [Option.filter] <;> omega

theorem toNat_toLower (c : Char) :
    c.toLower.toNat = if 65 ≤ c.toNat ∧ c.toNat ≤ 90 then c.toNat + 32 else c.toNat := by
  have hupper : c.val ≥ 'A'.val ∧ c.val ≤ 'Z'.val ↔ 65 ≤ c.toNat ∧ c.toNat ≤ 90 := by
    simp [UInt32.le_iff_toNat_le]
  unfold Char.toLower
  by_cases h : 65 ≤ c.toNat ∧ c.toNat ≤ 90
  · rw [dif_pos (hupper.2 h), if_pos h]
    change (c.val + 32).toNat = c.toNat + 32
    rw [UInt32.toNat_add, Char.toNat_val]
    simp
    omega
  · rw [dif_neg (mt hupper.1 h), if_neg h]

/-- The letters of hex digits in either case are worth the same. -/
theorem digitValue_toLower (base : Nat) (c : Char) : digitValue base c.toLower = digitValue base c := by
  rw [digitValue_eq, digitValue_eq, toNat_toLower]
  by_cases h : 65 ≤ c.toNat ∧ c.toNat ≤ 90
  · simp only [h, and_self, if_true]
    congr 1
    grind
  · simp only [h, if_false]

/-- The digit of a value below 16 is worth that value, in every base above it. -/
theorem digitValue_digitChar {base d : Nat} (hd : d < base) (hbase : base ≤ 16) :
    digitValue base (Nat.digitChar d) = some d := by
  have hsixteen : ∀ d < 16, digitValue 16 (Nat.digitChar d) = some d := by decide
  have h := hsixteen d (by omega)
  unfold digitValue at h ⊢
  simp_all [Option.filter_eq_some_iff]

/-! ### Digit strings -/

theorem digitsFrom_append (base acc : Nat) (t u : Text) :
    digitsFrom base acc (t ++ u) = (digitsFrom base acc t).bind fun a => digitsFrom base a u := by
  induction t generalizing acc with
  | nil => rfl
  | cons c cs ih =>
    simp only [List.cons_append, digitsFrom]
    cases digitValue base c with
    | none => rfl
    | some d => exact ih _

/-- Leading zeros add nothing. -/
theorem digitsFrom_replicate_zero {base : Nat} (hbase : 0 < base) (z : Nat) :
    digitsFrom base 0 (List.replicate z '0') = some 0 := by
  have hzero : digitValue base '0' = some 0 := by simp [digitValue, Option.filter, hbase]
  induction z with
  | zero => rfl
  | succ z ih => simpa [List.replicate_succ, digitsFrom, hzero] using ih

/-- The digits that print a number spell it. -/
theorem digitsFrom_toDigits {base : Nat} (hlo : 1 < base) (hhi : base ≤ 16) (n : Nat) :
    digitsFrom base 0 (Nat.toDigits base n) = some n := by
  induction n using Nat.strongRecOn with
  | ind n ih =>
    rw [Nat.toDigits_eq_if hlo]
    split_ifs with hn
    · simp [digitsFrom, digitValue_digitChar hn hhi]
    · have hdiv : n / base < n := Nat.div_lt_self (by omega) hlo
      have hdigit := digitValue_digitChar (Nat.mod_lt n (by omega)) hhi
      simp [digitsFrom_append, ih _ hdiv, digitsFrom, hdigit, Nat.div_add_mod']

/-- A number's digits with any leading zeros spell it (R55). -/
theorem digits_toDigits {base : Nat} (hlo : 1 < base) (hhi : base ≤ 16) (z n : Nat) :
    digits base (List.replicate z '0' ++ Nat.toDigits base n) = some n := by
  rw [digits, if_neg (by simp), digitsFrom_append, digitsFrom_replicate_zero (by omega), Option.bind_some,
    digitsFrom_toDigits hlo hhi]

theorem digits_map_toLower (base : Nat) (t : Text) : digits base (t.map Char.toLower) = digits base t := by
  have hfrom : ∀ acc, digitsFrom base acc (t.map Char.toLower) = digitsFrom base acc t := by
    induction t with
    | nil => exact fun _ => rfl
    | cons c cs ih => intro acc; simp only [List.map_cons, digitsFrom, digitValue_toLower, ih]
  simp [digits, hfrom]

theorem digits_ten_isSome {t : Text} : (digits 10 t).isSome = true ↔ IsDecimal t := by
  simp only [digits_isSome, digitValue_ten_isSome]

theorem digits_sixteen_isSome {t : Text} : (digits 16 t).isSome = true ↔ IsHex t := by
  simp only [digits_isSome, digitValue_sixteen_isSome]

/-! ### Kinds of tokens -/

theorem registerToken_isSome {t : Text} : (registerToken t).isSome = true ↔ IsRegisterToken t := by
  unfold registerToken
  split
  · simp [IsRegisterToken, digits_ten_isSome]
  · rename_i hR
    simp only [Option.isSome_none, Bool.false_eq_true, false_iff]
    rintro ⟨ds, rfl, -⟩
    exact hR ds rfl

/-- The token has the form of a hex literal: `0x` or `0X` and then anything. -/
abbrev HasHexPrefix (t : Text) : Prop := ∃ x ds, t = '0' :: x :: ds ∧ (x = 'x' ∨ x = 'X')

/-- No decimal number has `x` or `X` as its second character. -/
theorem IsDecimal.not_hasHexPrefix {t : Text} (h : IsDecimal t) : ¬ HasHexPrefix t := by
  rintro ⟨x, ds, rfl, hx⟩
  have hdigit : x.isDigit = true := h.2 x (by simp)
  rcases hx with rfl | rfl <;> exact absurd hdigit (by decide)

theorem addressLiteral_decimal {t : Text} (h : ¬ HasHexPrefix t) : addressLiteral t = digits 10 t := by
  unfold addressLiteral
  split
  · exact absurd ⟨_, _, rfl, .inl rfl⟩ h
  · exact absurd ⟨_, _, rfl, .inr rfl⟩ h
  · rfl

theorem addressLiteral_hex {x : Char} (hx : x = 'x' ∨ x = 'X') (ds : Text) :
    addressLiteral ('0' :: x :: ds) = digits 16 ds := by
  rcases hx with rfl | rfl <;> rfl

theorem addressLiteral_isSome {t : Text} : (addressLiteral t).isSome = true ↔ IsAddressLiteral t := by
  by_cases hhex : HasHexPrefix t
  · obtain ⟨x, ds, rfl, hx⟩ := hhex
    rw [addressLiteral_hex hx, digits_sixteen_isSome]
    refine ⟨fun h => .inr ⟨x, ds, rfl, hx, h⟩, ?_⟩
    rintro (hdec | ⟨y, es, heq, -, hds⟩)
    · exact absurd ⟨x, ds, rfl, hx⟩ (IsDecimal.not_hasHexPrefix hdec)
    · simp only [List.cons.injEq, true_and] at heq
      exact heq.2 ▸ hds
  · rw [addressLiteral_decimal hhex, digits_ten_isSome]
    exact ⟨.inl, fun h => h.resolve_right fun ⟨x, ds, ht, hx, _⟩ => hhex ⟨x, ds, ht, hx⟩⟩

theorem registerOperand_eq_operandSyntax {t : Text} :
    registerOperand t = .error .operandSyntax ↔ registerToken t = none := by
  unfold registerOperand
  cases registerToken t with
  | none => simp
  | some n => by_cases h : n ≤ 15 <;> simp [h]

theorem addressOperand_eq_operandSyntax {t : Text} :
    addressOperand t = .error .operandSyntax ↔ addressLiteral t = none := by
  unfold addressOperand
  cases addressLiteral t with
  | none => simp
  | some a => by_cases h : a ≤ 511 <;> simp [h]

theorem immediateOperand_eq_operandSyntax {t : Text} :
    immediateOperand t = .error .operandSyntax ↔ immediateLiteral t = none := by
  unfold immediateOperand
  cases immediateLiteral t <;> simp

/-- Settles O58: a token of the right kind has a number, and its fault is another one. -/
theorem wrongKindTokensRaiseOperandSyntax : Obligations.WrongKindTokensRaiseOperandSyntax := by
  intro t
  rw [registerOperand_eq_operandSyntax, addressOperand_eq_operandSyntax, immediateOperand_eq_operandSyntax,
    ← registerToken_isSome, ← addressLiteral_isSome, ← digits_ten_isSome, immediateLiteral]
  simp only [Option.not_isSome_iff_eq_none, true_and]
  intro labels
  unfold labelOperand
  cases labels.lookup t <;> simp

/-! ### Values of tokens -/

/-- Settles O52: the digits spell the number, and the range decides. -/
theorem operandTokensBecomeTheirValues : Obligations.OperandTokensBecomeTheirValues := by
  refine ⟨fun z n => ?_, fun z n => ?_, fun x z n ds hx hds => ?_, fun z n => ?_, fun labels t => ?_⟩
  · simp [registerOperand, registerToken, digits_toDigits]
  · have hdigits : digits 10 (List.replicate z '0' ++ Nat.toDigits 10 n) = some n :=
      digits_toDigits (by omega) (by omega) z n
    have hdec := digits_ten_isSome.1 (Option.isSome_of_eq_some hdigits)
    simp [addressOperand, addressLiteral_decimal hdec.not_hasHexPrefix, hdigits]
  · have hdigits : digits 16 ds = some n := by
      rw [← digits_map_toLower, hds, digits_toDigits (by omega) (by omega)]
    simp [addressOperand, addressLiteral_hex hx, hdigits]
  · simp [immediateOperand, immediateLiteral, digits_toDigits]
  · unfold labelOperand
    cases labels.lookup t <;> rfl

end Sys2Proof.Machine

namespace Sys2Proof.Machine

/-!
# Lines of the program (30_encoding.md)

What a line of each mnemonic decodes to (rules R59 to R63), when it is OPERAND_COUNT (rule R58), and that an
instruction it decodes to fits the image (rule R67).
-/

/-! ### Operand counts -/

/-- Reading an operand never answers OPERAND_COUNT. -/
abbrev NeverCounts {α : Type} (f : Text → Except FaultCause α) : Prop := ∀ t, f t ≠ .error .operandCount

theorem registerOperand_neverCounts : NeverCounts registerOperand := by
  intro t
  unfold registerOperand
  repeat' split
  all_goals simp

theorem addressOperand_neverCounts : NeverCounts addressOperand := by
  intro t
  unfold addressOperand
  repeat' split
  all_goals simp

theorem immediateOperand_neverCounts : NeverCounts immediateOperand := by
  intro t
  unfold immediateOperand
  split <;> simp

theorem labelOperand_neverCounts (labels : List (Text × Nat)) : NeverCounts (labelOperand labels) := by
  intro t
  unfold labelOperand
  split <;> simp

/-- `ADD t` reads a register where `t` is a register token (R61). -/
theorem addOperand_register {t : Text} (h : IsRegisterToken t) :
    addOperand t = (registerOperand t).map Instr.addR := by
  obtain ⟨n, hn⟩ := Option.isSome_iff_exists.1 (registerToken_isSome.2 h)
  rw [addOperand, hn]
  cases registerOperand t <;> rfl

/-- `ADD t` reads an address where `t` is no register token (R61). -/
theorem addOperand_address {t : Text} (h : ¬ IsRegisterToken t) :
    addOperand t = (addressOperand t).map Instr.addM := by
  rw [← registerToken_isSome, Option.not_isSome_iff_eq_none] at h
  rw [addOperand, h]
  cases addressOperand t <;> rfl

theorem map_ne_error {ε α β : Type} {r : Except ε α} {e : ε} (f : α → β) (h : r ≠ .error e) : r.map f ≠ .error e := by
  cases r with
  | error e' => simpa [Except.map] using h
  | ok x => simp [Except.map]

theorem addOperand_neverCounts : NeverCounts addOperand := by
  intro t
  by_cases h : IsRegisterToken t
  · rw [addOperand_register h]
    exact map_ne_error _ (registerOperand_neverCounts t)
  · rw [addOperand_address h]
    exact map_ne_error _ (addressOperand_neverCounts t)

theorem moveOperand_sentinel : moveOperand ['A'] = .ok none := rfl

theorem moveOperand_register {t : Text} (h : t ≠ ['A']) : moveOperand t = (registerOperand t).map some := by
  simp only [moveOperand, isSentinel, beq_iff_eq, h, if_false]
  cases registerOperand t <;> rfl

theorem moveOperand_neverCounts : NeverCounts moveOperand := by
  intro t
  by_cases h : t = ['A']
  · simp [h, moveOperand_sentinel]
  · rw [moveOperand_register h]
    exact map_ne_error _ (registerOperand_neverCounts t)

theorem noOperand_eq_operandCount {i : Instr} {ts : List Text} :
    noOperand i ts = .error .operandCount ↔ ts.length ∉ [0] := by
  cases ts <;> simp [noOperand]

theorem oneOperand_eq_operandCount {α : Type} {f : Text → Except FaultCause α} (hf : NeverCounts f) {mk : α → Instr}
    {ts : List Text} : oneOperand f mk ts = .error .operandCount ↔ ts.length ∉ [1] := by
  match ts with
  | [] => simp [oneOperand]
  | [t] => 
    have := hf t
    cases h : f t <;> simp_all [Except.map]
  | _ :: _ :: _ => simp [oneOperand]

theorem twoOperands_eq_operandCount {α β : Type} {f : Text → Except FaultCause α} {g : Text → Except FaultCause β}
    (hf : NeverCounts f) (hg : NeverCounts g) {mk : α → β → Instr} {ts : List Text} :
    twoOperands f g mk ts = .error .operandCount ↔ ts.length ∉ [2] := by
  match ts with
  | [] | [_] => simp [twoOperands]
  | [t, u] =>
    have := hf t
    have := hg u
    cases h : f t <;> cases h' : g u <;> simp_all [Except.map, Except.bind]
  | _ :: _ :: _ :: _ => simp [twoOperands]

theorem moveLine_eq_operandCount {ts : List Text} :
    moveLine ts = .error .operandCount ↔ ts.length ∉ [2] := by
  match ts with
  | [] | [_] => simp [moveLine]
  | [t, u] =>
    have ht := moveOperand_neverCounts t
    have hu := moveOperand_neverCounts u
    rw [moveLine]
    split
    · simp_all
    · split
      · simp_all
      · split <;> simp
  | _ :: _ :: _ :: _ => simp [moveLine]

theorem outLine_eq_operandCount {ts : List Text} : outLine ts = .error .operandCount ↔ ts.length ∉ [0, 1] := by
  cases ts with
  | nil => simp [outLine]
  | cons t ts => simp [outLine, oneOperand_eq_operandCount registerOperand_neverCounts]

/-- A mnemonic with a fixed number of operands answers OPERAND_COUNT exactly on any other number (R58). -/
theorem decodeOperands_eq_operandCount {m : Mnemonic} {cs : List Nat} (h : operandCounts m = some cs)
    (labels : List (Text × Nat)) (l : Text) (ts : List Text) :
    decodeOperands labels l ts m = .error .operandCount ↔ ts.length ∉ cs := by
  cases m <;> cases h
  case nop | not | inc | dec | rol | ror | push | pop | inp | hlt => exact noOperand_eq_operandCount
  case lda | sta | sub | and | or | xor => exact oneOperand_eq_operandCount addressOperand_neverCounts
  case ldi => exact oneOperand_eq_operandCount immediateOperand_neverCounts
  case add => exact oneOperand_eq_operandCount addOperand_neverCounts
  case jmp | jz | jnz | jc | jnc => exact oneOperand_eq_operandCount (labelOperand_neverCounts labels)
  case ldr | str => exact twoOperands_eq_operandCount registerOperand_neverCounts addressOperand_neverCounts
  case ldri => exact twoOperands_eq_operandCount registerOperand_neverCounts immediateOperand_neverCounts
  case mov => exact moveLine_eq_operandCount
  case out => exact outLine_eq_operandCount

/-- Settles O51: each mnemonic by the form of its operand list; PRINT is the one with no count. -/
theorem operandCountsAreFixed : Obligations.OperandCountsAreFixed := by
  intro labels l m hm
  rw [decodeLine_of_mnemonic labels hm]
  refine ⟨fun cs hcs => decodeOperands_eq_operandCount hcs labels l _, fun h => ?_⟩
  cases m <;> cases h
  rfl

/-! ### The form of each mnemonic -/

/-- A line whose opcode token spells a mnemonic decodes by that mnemonic's operands (R54, R60). -/
theorem decodeLine_of_name (labels : List (Text × Nat)) {l : Text} {name : String} {m : Mnemonic}
    (hname : foldCase (firstToken l) = name.toList) (hm : mnemonicTable.lookup name.toList = some m) :
    decodeLine labels l = decodeOperands labels l (operandTokens l) m :=
  decodeLine_of_mnemonic labels (by rw [mnemonicOf, hname, hm])

theorem addLine_register {t : Text} (h : IsRegisterToken t) :
    oneOperand addOperand id [t] = (registerOperand t).map fun n => .instr (.addR n) := by
  rw [oneOperand_singleton, addOperand_register h]
  cases registerOperand t <;> rfl

theorem addLine_address {t : Text} (h : ¬ IsRegisterToken t) :
    oneOperand addOperand id [t] = (addressOperand t).map fun a => .instr (.addM a) := by
  rw [oneOperand_singleton, addOperand_address h]
  cases addressOperand t <;> rfl

theorem moveLine_registers {t u : Text} (ht : t ≠ ['A']) (hu : u ≠ ['A']) : moveLine [t, u] =
    (registerOperand t).bind fun n => (registerOperand u).map fun m => .instr (.movRR n m) := by
  rw [moveLine, moveOperand_register ht, moveOperand_register hu]
  cases registerOperand t <;> cases registerOperand u <;> rfl

theorem moveLine_to_sentinel {t : Text} (ht : t ≠ ['A']) :
    moveLine [t, ['A']] = (registerOperand t).map fun n => .instr (.movRA n) := by
  rw [moveLine, moveOperand_register ht, moveOperand_sentinel]
  cases registerOperand t <;> rfl

theorem moveLine_from_sentinel {u : Text} (hu : u ≠ ['A']) :
    moveLine [['A'], u] = (registerOperand u).map fun m => .instr (.movAR m) := by
  rw [moveLine, moveOperand_register hu, moveOperand_sentinel]
  cases registerOperand u <;> rfl

/-- A text that does not begin with a blank is a trimmed text and blanks. -/
theorem trimEnd_spec {r : Text} (h : ∀ c ∈ r.head?, isBlank c = false) :
    ∃ after, r = trimEnd r ++ after ∧ (∀ c ∈ after, isBlank c = true) ∧ IsTrimmed (trimEnd r) := by
  have hsplit : r = trimEnd r ++ (r.reverse.takeWhile isBlank).reverse := by
    rw [trimEnd, ← List.reverse_append, List.takeWhile_append_dropWhile, List.reverse_reverse]
  refine ⟨_, hsplit, fun c hc => List.mem_takeWhile_imp (List.mem_reverse.1 hc), fun c hc => ?_, fun c hc => ?_⟩
  · rw [hsplit] at h
    exact h c (by rw [List.head?_append, Option.mem_def.1 hc]; rfl)
  · have hlast := List.head?_dropWhile_not isBlank r.reverse
    rw [trimEnd, List.getLast?_reverse] at hc
    simpa [Option.mem_def.1 hc] using hlast

/-- A PRINT line is its opcode token, blanks, the template and blanks (R59). -/
theorem printTemplate_spec (l : Text) : ∃ before after : Text,
    l = firstToken l ++ before ++ printTemplate l ++ after ∧ (∀ c ∈ before ++ after, isBlank c = true) ∧
      IsTrimmed (printTemplate l) := by
  have hhead : ∀ c ∈ ((afterToken l).dropWhile isBlank).head?, isBlank c = false := by
    intro c hc
    simpa [Option.mem_def.1 hc] using List.head?_dropWhile_not isBlank (afterToken l)
  obtain ⟨after, hafter, hblank, htrimmed⟩ := trimEnd_spec hhead
  refine ⟨(afterToken l).takeWhile isBlank, after, ?_, ?_, htrimmed⟩
  · calc l = firstToken l ++ afterToken l := List.takeWhile_append_dropWhile.symm
      _ = firstToken l ++ ((afterToken l).takeWhile isBlank ++ (afterToken l).dropWhile isBlank) := by
        rw [List.takeWhile_append_dropWhile]
      _ = firstToken l ++ ((afterToken l).takeWhile isBlank ++ (printTemplate l ++ after)) := by
        rw [printTemplate, ← hafter]
      _ = _ := by simp only [List.append_assoc]
  · exact List.forall_mem_append.2 ⟨fun c hc => List.mem_takeWhile_imp hc, hblank⟩

/-- Settles O59: the table gives each spelling its mnemonic, and the mnemonic's operands give the form. -/
theorem everyMnemonicDecodesToItsForm : Obligations.EveryMnemonicDecodesToItsForm := by
  intro labels l name hname
  have hline : ∀ {m ts}, mnemonicTable.lookup name.toList = some m → operandTokens l = ts →
      decodeLine labels l = decodeOperands labels l ts m := fun hm hts => hts ▸ decodeLine_of_name labels hname hm
  refine ⟨?plain, ?address, ?regAddress, ?immediate, ?regImmediate, ?label, ?add, ?move, ?out, ?print⟩
  case plain =>
    intro i hi hts
    simp only [List.mem_cons, Prod.mk.injEq, List.not_mem_nil, or_false] at hi
    rcases hi with ⟨rfl, rfl⟩ | ⟨rfl, rfl⟩ | ⟨rfl, rfl⟩ | ⟨rfl, rfl⟩ | ⟨rfl, rfl⟩ | ⟨rfl, rfl⟩ | ⟨rfl, rfl⟩ |
      ⟨rfl, rfl⟩ | ⟨rfl, rfl⟩ | ⟨rfl, rfl⟩ | ⟨rfl, rfl⟩ <;>
    exact (hline rfl hts).trans rfl
  case address =>
    intro mk t hmk hts
    simp only [List.mem_cons, Prod.mk.injEq, List.not_mem_nil, or_false] at hmk
    rcases hmk with ⟨rfl, rfl⟩ | ⟨rfl, rfl⟩ | ⟨rfl, rfl⟩ | ⟨rfl, rfl⟩ | ⟨rfl, rfl⟩ | ⟨rfl, rfl⟩ <;>
    exact (hline rfl hts).trans (oneOperand_singleton addressOperand _ t)
  case regAddress =>
    intro mk t u hmk hts
    simp only [List.mem_cons, Prod.mk.injEq, List.not_mem_nil, or_false] at hmk
    rcases hmk with ⟨rfl, rfl⟩ | ⟨rfl, rfl⟩ <;>
    exact (hline rfl hts).trans (twoOperands_pair registerOperand addressOperand _ t u)
  case immediate =>
    rintro t rfl hts
    exact (hline rfl hts).trans (oneOperand_singleton immediateOperand _ t)
  case regImmediate =>
    rintro t u rfl hts
    exact (hline rfl hts).trans (twoOperands_pair registerOperand immediateOperand _ t u)
  case label =>
    intro mk t hmk hts
    simp only [List.mem_cons, Prod.mk.injEq, List.not_mem_nil, or_false] at hmk
    rcases hmk with ⟨rfl, rfl⟩ | ⟨rfl, rfl⟩ | ⟨rfl, rfl⟩ | ⟨rfl, rfl⟩ | ⟨rfl, rfl⟩ <;>
    exact (hline rfl hts).trans (oneOperand_singleton (labelOperand labels) _ t)
  case add =>
    rintro t rfl hts
    exact ⟨fun h => (hline rfl hts).trans (addLine_register h), fun h => (hline rfl hts).trans (addLine_address h)⟩
  case move =>
    rintro t u rfl hts
    refine ⟨fun ht hu => (hline rfl hts).trans (moveLine_registers ht hu), ?_, ?_, ?_⟩
    · rintro ht rfl
      exact (hline rfl hts).trans (moveLine_to_sentinel ht)
    · rintro rfl hu
      exact (hline rfl hts).trans (moveLine_from_sentinel hu)
    · rintro rfl rfl
      exact (hline rfl hts).trans rfl
  case out =>
    rintro t rfl hts
    exact (hline rfl hts).trans (oneOperand_singleton registerOperand _ t)
  case print =>
    rintro rfl
    obtain ⟨before, after, hl, hblank, htrimmed⟩ := printTemplate_spec l
    exact ⟨printTemplate l, before, after, hline rfl rfl, hl, hblank, htrimmed⟩

end Sys2Proof.Machine

namespace Sys2Proof.Machine

/-!
# The loader's image (30_encoding.md)

Record k is what line k decodes to (rule R66), and it is well-formed in the image (rule R67): a jump's target is a
label's index, which is at most N, and a PRINT's index finds its template.
-/

/-! ### Record k of line k -/

/-- The record `w` is what the line `l` decodes to, where the templates are numbered from `t` on (R66). -/
def RecordOfLine (labels : List (Text × Nat)) (t : Nat) (templates : List Text) (l : Text) (w : Record) : Prop :=
  match decodeLine labels l with
  | .error c => decode w = .ok (.fault (causeCode c))
  | .ok (.instr i) => decode w = .ok i
  | .ok (.print text) => ∃ j : Index, decode w = .ok (.print j) ∧ t ≤ j.toNat ∧ templates[j.toNat - t]? = some text

section
variable {labels : List (Text × Nat)} {l : Text}

theorem translateLines_error {c : FaultCause} (h : decodeLine labels l = .error c) (t : Nat) (ls : List Text) :
    translateLines labels t (l :: ls) =
      ⟨encode (.fault (causeCode c)) :: (translateLines labels t ls).records,
        (translateLines labels t ls).templates⟩ := by
  rw [translateLines, h]

theorem translateLines_instr {i : Instr} (h : decodeLine labels l = .ok (.instr i)) (t : Nat) (ls : List Text) :
    translateLines labels t (l :: ls) =
      ⟨encode i :: (translateLines labels t ls).records, (translateLines labels t ls).templates⟩ := by
  rw [translateLines, h]

theorem translateLines_print {text : Text} (h : decodeLine labels l = .ok (.print text)) (t : Nat) (ls : List Text) :
    translateLines labels t (l :: ls) =
      ⟨encode (.print (BitVec.ofNat 16 t)) :: (translateLines labels (t + 1) ls).records,
        text :: (translateLines labels (t + 1) ls).templates⟩ := by
  rw [translateLines, h]

theorem recordOfLine_error {c : FaultCause} (h : decodeLine labels l = .error c) {t : Nat} {templates : List Text}
    {w : Record} : RecordOfLine labels t templates l w ↔ decode w = .ok (.fault (causeCode c)) := by
  rw [RecordOfLine, h]

theorem recordOfLine_instr {i : Instr} (h : decodeLine labels l = .ok (.instr i)) {t : Nat} {templates : List Text}
    {w : Record} : RecordOfLine labels t templates l w ↔ decode w = .ok i := by
  rw [RecordOfLine, h]

theorem recordOfLine_print {text : Text} (h : decodeLine labels l = .ok (.print text)) {t : Nat}
    {templates : List Text} {w : Record} : RecordOfLine labels t templates l w ↔
      ∃ j : Index, decode w = .ok (.print j) ∧ t ≤ j.toNat ∧ templates[j.toNat - t]? = some text := by
  rw [RecordOfLine, h]

/-- A template in front moves the numbers of the others by one. -/
theorem RecordOfLine.cons {t : Nat} {templates : List Text} {w : Record}
    (hw : RecordOfLine labels (t + 1) templates l w) (text : Text) :
    RecordOfLine labels t (text :: templates) l w := by
  match h : decodeLine labels l with
  | .error c => exact (recordOfLine_error h).2 ((recordOfLine_error h).1 hw)
  | .ok (.instr i) => exact (recordOfLine_instr h).2 ((recordOfLine_instr h).1 hw)
  | .ok (.print _) =>
    obtain ⟨j, hj, hlt, htext⟩ := (recordOfLine_print h).1 hw
    refine (recordOfLine_print h).2 ⟨j, hj, by omega, ?_⟩
    rwa [show j.toNat - t = j.toNat - (t + 1) + 1 by omega, List.getElem?_cons_succ]

end

theorem translateLines_length (labels : List (Text × Nat)) (t : Nat) (ls : List Text) :
    (translateLines labels t ls).records.length = ls.length := by
  induction ls generalizing t with
  | nil => rfl
  | cons l ls ih =>
    match h : decodeLine labels l with
    | .error c => simp [translateLines_error h, ih]
    | .ok (.instr i) => simp [translateLines_instr h, ih]
    | .ok (.print text) => simp [translateLines_print h, ih]

/-- Every line has its record, as long as the numbers of the templates fit in 16 bits. -/
theorem translateLines_recordOfLine {labels : List (Text × Nat)} {t : Nat} {ls : List Text}
    (ht : t + ls.length ≤ 65536) {k : Nat} {l : Text} (hk : ls[k]? = some l) :
    ∃ w, (translateLines labels t ls).records[k]? = some w ∧
      RecordOfLine labels t (translateLines labels t ls).templates l w := by
  induction ls generalizing t k with
  | nil => simp at hk
  | cons head ls ih =>
    rw [List.length_cons] at ht
    match h : decodeLine labels head, k with
    | .error c, 0 =>
      obtain rfl := Option.some.inj hk
      rw [translateLines_error h]
      exact ⟨_, rfl, (recordOfLine_error h).2 (decodeOfEncodeIsTheInstruction _)⟩
    | .ok (.instr i), 0 =>
      obtain rfl := Option.some.inj hk
      rw [translateLines_instr h]
      exact ⟨_, rfl, (recordOfLine_instr h).2 (decodeOfEncodeIsTheInstruction _)⟩
    | .ok (.print text), 0 =>
      obtain rfl := Option.some.inj hk
      rw [translateLines_print h]
      have hindex : (BitVec.ofNat 16 t).toNat = t := Nat.mod_eq_of_lt (by omega)
      exact ⟨_, rfl, (recordOfLine_print h).2
        ⟨_, decodeOfEncodeIsTheInstruction _, by simp [hindex], by simp [hindex]⟩⟩
    | .error c, k + 1 =>
      rw [translateLines_error h]
      exact ih (by omega) hk
    | .ok (.instr i), k + 1 =>
      rw [translateLines_instr h]
      exact ih (by omega) hk
    | .ok (.print text), k + 1 =>
      rw [translateLines_print h]
      obtain ⟨w, hw, hline⟩ := ih (t := t + 1) (by omega) hk
      exact ⟨w, hw, hline.cons text⟩

/-- Settles O53: the first template has number 0. -/
theorem loaderTranslatesEveryLine : Obligations.LoaderTranslatesEveryLine := by
  intro source m hload
  obtain ⟨-, -, hlen, rfl⟩ := load_eq_ok.1 hload
  refine ⟨translateLines_length _ _ _, fun k l hk => ?_⟩
  obtain ⟨w, hw, hline⟩ := translateLines_recordOfLine (labels := (scan source).labels) (t := 0) (by omega) hk
  refine ⟨w, hw, ?_⟩
  match h : decodeLine (scan source).labels l with
  | .error c => exact (recordOfLine_error h).1 hline
  | .ok (.instr i) => exact (recordOfLine_instr h).1 hline
  | .ok (.print text) =>
    obtain ⟨j, hj, -, htext⟩ := (recordOfLine_print h).1 hline
    exact ⟨j, hj, htext⟩

/-! ### Labels -/

/-- Every label's index is at most the number of lines read so far. -/
def Listing.LabelsFit (p : Listing) : Prop := ∀ e ∈ p.labels, e.2 ≤ p.program.length

theorem Listing.LabelsFit.append {p : Listing} (h : p.LabelsFit) (l : Text) : (p.append l).LabelsFit := by
  intro e he
  have := h e he
  simp only [Listing.append, List.length_append]
  omega

theorem Listing.LabelsFit.define {p : Listing} (h : p.LabelsFit) (name : Text) : (p.define name).LabelsFit := by
  intro e he
  simp only [Listing.define, List.mem_append, List.mem_singleton] at he
  obtain he | rfl := he
  · exact h e he
  · exact le_rfl

theorem Listing.LabelsFit.scanLine {p : Listing} (h : p.LabelsFit) (source : Text) :
    (scanLine p source).LabelsFit := by
  unfold Machine.scanLine
  dsimp only
  split_ifs
  · exact h
  · exact h.append _
  · split
    · exact h.append _
    · split_ifs
      · exact h.define _
      · exact (h.define _).append _

theorem scan_labelsFit (source : Text) : (scan source).LabelsFit :=
  List.foldlRecOn _ _ (by simp [Listing.LabelsFit]) fun _ h line _ => h.scanLine line

/-! ### Instructions of a line -/

/-- The instruction is well-formed and fits an image of `n` records, whatever its templates are (R67). -/
abbrev Instr.FitsRecords (n : Nat) (i : Instr) : Prop := i.wf = true ∧ ∀ t, i.fits n t = true

/-- Where the answer is an instruction, it fits an image of `n` records. -/
def FitsLine (n : Nat) (r : Except FaultCause Line) : Prop := ∀ i, r = .ok (.instr i) → Instr.FitsRecords n i

section
variable {n : Nat}

theorem fitsLine_error (c : FaultCause) : FitsLine n (.error c) := by
  rintro i ⟨⟩

theorem fitsLine_instr {i : Instr} (h : Instr.FitsRecords n i) : FitsLine n (.ok (.instr i)) := by
  rintro j ⟨⟩
  exact h

theorem noOperand_fitsLine {i : Instr} (h : Instr.FitsRecords n i) (ts : List Text) :
    FitsLine n (noOperand i ts) := by
  cases ts with
  | nil => exact fitsLine_instr h
  | cons t ts => exact fitsLine_error _

theorem oneOperand_fitsLine {α : Type} {f : Text → Except FaultCause α} {mk : α → Instr}
    (h : ∀ t x, f t = .ok x → Instr.FitsRecords n (mk x)) (ts : List Text) : FitsLine n (oneOperand f mk ts) := by
  match ts with
  | [] | _ :: _ :: _ => exact fitsLine_error _
  | [t] =>
    rw [oneOperand]
    split
    · exact fitsLine_instr (h _ _ ‹_›)
    · exact fitsLine_error _

theorem twoOperands_fitsLine {α β : Type} {f : Text → Except FaultCause α} {g : Text → Except FaultCause β}
    {mk : α → β → Instr} (h : ∀ x y, Instr.FitsRecords n (mk x y)) (ts : List Text) :
    FitsLine n (twoOperands f g mk ts) := by
  match ts with
  | [] | [_] | _ :: _ :: _ :: _ => exact fitsLine_error _
  | [t, u] =>
    rw [twoOperands]
    split
    · exact fitsLine_error _
    · split
      · exact fitsLine_error _
      · exact fitsLine_instr (h _ _)

/-- `ADD` is one of two forms, and neither has a target, a cause or a template. -/
theorem addOperand_fitsRecords {t : Text} {i : Instr} (h : addOperand t = .ok i) : Instr.FitsRecords n i := by
  by_cases ht : IsRegisterToken t
  · rw [addOperand_register ht] at h
    cases hr : registerOperand t with
    | error c => simp [hr, Except.map] at h
    | ok m =>
      obtain rfl : Instr.addR m = i := by simpa [hr, Except.map] using h
      exact ⟨rfl, fun _ => rfl⟩
  · rw [addOperand_address ht] at h
    cases ha : addressOperand t with
    | error c => simp [ha, Except.map] at h
    | ok a =>
      obtain rfl : Instr.addM a = i := by simpa [ha, Except.map] using h
      exact ⟨rfl, fun _ => rfl⟩

theorem moveLine_fitsLine (ts : List Text) : FitsLine n (moveLine ts) := by
  match ts with
  | [] | [_] | _ :: _ :: _ :: _ => exact fitsLine_error _
  | [t, u] =>
    rw [moveLine]
    split
    · exact fitsLine_error _
    · split
      · exact fitsLine_error _
      · split
        · exact fitsLine_instr ⟨rfl, fun _ => rfl⟩
        · exact fitsLine_instr ⟨rfl, fun _ => rfl⟩
        · exact fitsLine_instr ⟨rfl, fun _ => rfl⟩
        · exact fitsLine_error _

theorem outLine_fitsLine (ts : List Text) : FitsLine n (outLine ts) := by
  cases ts with
  | nil => exact fitsLine_instr ⟨rfl, fun _ => rfl⟩
  | cons t ts => exact oneOperand_fitsLine (fun _ _ _ => ⟨rfl, fun _ => rfl⟩) _

/-- A label operand is the index of a label: it is not cut off, and no more than `n`. -/
theorem labelOperand_le {labels : List (Text × Nat)} (hlabels : ∀ e ∈ labels, e.2 ≤ n) {t : Text} {k : Index}
    (h : labelOperand labels t = .ok k) : k.toNat ≤ n := by
  unfold labelOperand at h
  split at h
  · cases h
  · rename_i j hj
    obtain rfl := Except.ok.inj h
    obtain ⟨l₁, l₂, rfl, -⟩ := List.lookup_eq_some_iff.1 hj
    exact (Nat.mod_le _ _).trans (hlabels (t, j) (by simp))

/-- An instruction of a line fits the image where the labels do: the only jumps are those to a label. -/
theorem decodeLine_fitsLine {labels : List (Text × Nat)} (hlabels : ∀ e ∈ labels, e.2 ≤ n) (l : Text) :
    FitsLine n (decodeLine labels l) := by
  unfold decodeLine
  split
  · exact fitsLine_error _
  rename_i m _
  cases m with
  | nop | not | inc | dec | rol | ror | push | pop | inp | hlt => exact noOperand_fitsLine ⟨rfl, fun _ => rfl⟩ _
  | lda | sta | ldi | sub | and | or | xor => exact oneOperand_fitsLine (fun _ _ _ => ⟨rfl, fun _ => rfl⟩) _
  | ldr | str | ldri => exact twoOperands_fitsLine (fun _ _ => ⟨rfl, fun _ => rfl⟩) _
  | jmp | jz | jnz | jc | jnc =>
    refine oneOperand_fitsLine (fun _ _ hk => ?_) _
    exact ⟨rfl, fun _ => decide_eq_true (labelOperand_le hlabels hk)⟩
  | add => exact oneOperand_fitsLine (fun _ _ h => addOperand_fitsRecords h) _
  | mov => exact moveLine_fitsLine _
  | out => exact outLine_fitsLine _
  | print => rintro i ⟨⟩

end

/-! ### Well-formed images -/

/-- The record of a line is well-formed: a cause of a fault, an instruction that fits, or the index of a template. -/
theorem RecordOfLine.wf {labels : List (Text × Nat)} {n : Nat} {templates : List Text} {l : Text} {w : Record}
    (hw : RecordOfLine labels 0 templates l w) (hlabels : ∀ e ∈ labels, e.2 ≤ n) :
    ∃ i, decode w = .ok i ∧ i.wf = true ∧ i.fits n templates.length = true := by
  match h : decodeLine labels l with
  | .error c =>
    obtain ⟨hlo, hhi⟩ := causeCode_range c
    exact ⟨_, (recordOfLine_error h).1 hw, by simp [Instr.wf, hlo, hhi], rfl⟩
  | .ok (.instr i) =>
    obtain ⟨hwf, hfits⟩ := decodeLine_fitsLine hlabels l i h
    exact ⟨i, (recordOfLine_instr h).1 hw, hwf, hfits _⟩
  | .ok (.print text) =>
    obtain ⟨j, hj, -, htext⟩ := (recordOfLine_print h).1 hw
    exact ⟨_, hj, rfl, decide_eq_true (List.getElem?_eq_some_iff.1 htext).1⟩

/-- Settles O54: every record is some line's. -/
theorem loaderMakesOnlyWellFormedImages : Obligations.LoaderMakesOnlyWellFormedImages := by
  intro source m hload
  obtain ⟨-, -, hlen, rfl⟩ := load_eq_ok.1 hload
  have hrecords := translateLines_length (scan source).labels 0 (scan source).program
  have hwf : (translateLines (scan source).labels 0 (scan source).program).wf = true := by
    refine Image.wf_iff.2 ⟨hrecords ▸ hlen, fun w hw => ?_⟩
    obtain ⟨k, hk, rfl⟩ := List.mem_iff_getElem.1 hw
    have hline : (scan source).program[k]? = some ((scan source).program[k]'(hrecords ▸ hk)) :=
      List.getElem?_eq_getElem _
    obtain ⟨w, hget, hrecord⟩ :=
      translateLines_recordOfLine (labels := (scan source).labels) (t := 0) (by omega) hline
    obtain rfl := Option.some.inj ((List.getElem?_eq_getElem hk).symm.trans hget)
    exact hrecord.wf (hrecords ▸ scan_labelsFit source)
  exact ⟨hwf, Image.allDecode_of_wf hwf⟩

end Sys2Proof.Machine

namespace Sys2Proof.Machine

/-!
# The execution engine (40_execution_engine.md)

What a step runs (rule R72), where PC stands after it (rule R73), how a run ends (rule R71), and that no run of a
well-formed image meets a model fault or a refusal (rule R74): a well-formed instruction answers a next state
(`exec_answers`), so a step from a legal state does and stays legal (`step_of_legal`), and so does a run.
-/

/-! ### One step -/

/-- Settles O6: a record at PC is below N, so a core that is not halted is not stopped. -/
theorem stepRunsTheDecodedInstruction : Obligations.StepRunsTheDecodedInstruction := by
  intro s w i hhalt hw hi
  have hrun : s.stopped = false := s.running_iff.2 ⟨hhalt, (List.getElem?_eq_some_iff.1 hw).1⟩
  exact step_of_decode hrun hw hi

/-- Settles O7: PC is one part of what every instruction can do. -/
theorem pcAfterEveryInstruction : Obligations.PcAfterEveryInstruction :=
  fun _ _ _ h => (exec_effect h).pc_eq

/-! ### Well-formed instructions answer a next state -/

/-- A meaning that answers a next state on both of its branches answers one. -/
theorem ite_answers {p : Prop} [Decidable p] {x y : Result} (hx : ∃ t, x = .next t) (hy : ∃ t, y = .next t) :
    ∃ t, (if p then x else y) = .next t := by
  split
  · exact hx
  · exact hy

theorem done_answers (s : State) : ∃ t, done s = .next t := ⟨_, rfl⟩

theorem doneUpdated_answers (s : State) : ∃ t, doneUpdated s = .next t := ⟨_, rfl⟩

theorem raise_answers (k : FaultCause) (s : State) : ∃ t, raise k s = .next t := ⟨_, rfl⟩

theorem jumpIf_answers (taken : Bool) (target : Index) (s : State) : ∃ t, jumpIf taken target s = .next t :=
  ite_answers (doneUpdated_answers _) (done_answers _)

/-- A FAULT record is well-formed exactly where its cause is the code of one (R64, R67). -/
theorem Instr.wf_fault_iff {c : BitVec 4} : (Instr.fault c).wf = true ↔ ∃ k, causeOfCode c = some k := by
  rw [← Option.isSome_iff_exists, causeOfCode_isSome, Instr.wf]

/-- A FAULT record that names a cause raises it (R113). -/
theorem execFault_answers {c : BitVec 4} (h : (Instr.fault c).wf = true) (s : State) :
    ∃ t, execFault c s = .next t := by
  obtain ⟨k, hk⟩ := Instr.wf_fault_iff.1 h
  rw [execFault, hk]
  exact raise_answers k s

/-- Every well-formed instruction answers a next state: it completes, or raises its fault. -/
theorem exec_answers {i : Instr} (h : i.wf = true) (s : State) : ∃ t, exec i s = .next t := by
  cases i with
  | jmp target => exact jumpIf_answers true target s
  | jz target | jnz target | jc target | jnc target => exact jumpIf_answers _ target s
  | hlt => exact doneUpdated_answers _
  | sub addr => exact ite_answers (done_answers _) (done_answers _)
  | push | pop | print template => exact ite_answers (raise_answers _ s) (done_answers _)
  | fault cause => exact execFault_answers h s
  | _ => exact done_answers _

/-- Settles O8: the FAULT record is the one instruction whose well-formedness is needed. -/
theorem everyWellFormedInstructionAnswersANextState : Obligations.EveryWellFormedInstructionAnswersANextState :=
  fun _ s h => exec_answers h s

/-! ### The end of a run -/

/-- Settles O10: the three ends are told apart by HALT and then by FAULT, and where HALT is 0 a legal state has
FAULT 0 (10_state.md rule R25). -/
theorem aRunEndsInOneOfThreeWays : Obligations.ARunEndsInOneOfThreeWays := by
  rintro s ⟨-, -, -, -, hhalt⟩
  rw [State.stopped_iff]
  cases h : s.halt with
  | true => simp [State.Exhausted, State.HaltedByHlt, State.Faulted, h, em]
  | false =>
    have hfault : s.fault = 0 := by simpa [h] using hhalt
    simp [State.Exhausted, State.HaltedByHlt, State.Faulted, h, hfault]

/-- A step from a legal state answers a legal state: a stopped core stays, and a running one executes a
well-formed instruction (R67, R72). -/
theorem step_of_legal {s : State} (hs : s.Legal) : ∃ t, step s = .next t ∧ t.Legal := by
  have hnext : ∃ t, step s = .next t := by
    cases hrun : s.stopped with
    | true => exact ⟨s, step_of_stopped hrun⟩
    | false =>
      have ⟨_, himage, _⟩ := hs
      have hw : s.fetch = some _ := List.getElem?_eq_getElem (s.running_iff.1 hrun).2
      obtain ⟨i, hi, hwf, -⟩ := (Image.wf_iff.1 himage).2 _ (List.mem_of_getElem? hw)
      rw [step_of_decode hrun hw hi]
      exact exec_answers hwf s
  obtain ⟨t, ht⟩ := hnext
  exact ⟨t, ht, everyStepKeepsTheStateLegal s t hs ht⟩

/-- Any number of step requests from a legal state answers a legal state. -/
theorem run_of_legal (n : Nat) {s : State} (hs : s.Legal) :
    ∃ t, Sys2Proof.core.run n s = .next t ∧ t.Legal := by
  induction n generalizing s with
  | zero => exact ⟨s, rfl, hs⟩
  | succ n ih =>
    obtain ⟨t, hstep, ht⟩ := step_of_legal hs
    rw [run_succ hstep]
    exact ih ht

/-- Settles O48: what boot releases is legal. -/
theorem everyRunOfAWellFormedImageGoesOn : Obligations.EveryRunOfAWellFormedImageGoesOn :=
  fun p v m k n s hs => run_of_legal n ((bootGivesALegalState p v m k).1 s hs).1

end Sys2Proof.Machine

namespace Sys2Proof.Machine

/-!
# Transfer (41_transfer.md)

Each transfer instruction is one of three shared operations (`loadA`, `loadReg`, `storeByte`) at one of its operand
forms. That an operation completes, with its value and its frame, is said once; the statements name the operands.
-/

/-! ### The shared operations complete -/

/-- A load into A completes (R77, R81, R84). -/
theorem loadA_completes (o : Operand) (s : State) :
    ∃ t, loadA o s = .next t ∧ t.a = s.value o ∧ t.pc = s.pc + 1 ∧ Frame { a := true } s t :=
  have ⟨t, h⟩ := done_answers _
  ⟨t, h, loadA_spec h⟩

/-- A load into a register completes (R79, R82, R83, R85). -/
theorem loadReg_completes (n : RegIndex) (o : Operand) (s : State) :
    ∃ t, loadReg n o s = .next t ∧ t.reg n = s.value o ∧ t.pc = s.pc + 1 ∧ Frame { reg := some n } s t :=
  have ⟨t, h⟩ := done_answers _
  ⟨t, h, loadReg_spec h⟩

/-- A store completes, and only the byte at its address reads otherwise than before (R78, R80). -/
theorem storeByte_completes {s : State} (hwf : Memory.wf s.mem = true) (addr : Address) (o : Operand) :
    ∃ t, storeByte addr o s = .next t ∧ t.byte addr = s.value o ∧ (∀ b, b ≠ addr → t.byte b = s.byte b) ∧
      t.pc = s.pc + 1 ∧ Frame { cell := some addr } s t := by
  obtain ⟨t, h⟩ := done_answers (s.setByte addr (s.value o))
  obtain ⟨hbyte, hpc, hframe⟩ := storeByte_spec h
  exact ⟨t, h, hbyte hwf, fun b hb => hframe.byte b fun e => hb (Option.some.inj e).symm, hpc, hframe⟩

/-! ### One transfer -/

/-- Settles O20: STA stores A and STR a register. -/
theorem storesWriteExactlyOneByte : Obligations.StoresWriteExactlyOneByte := by
  rintro s i addr v hwf (⟨rfl, rfl⟩ | ⟨n, rfl, rfl⟩)
  · exact storeByte_completes hwf addr .accumulator
  · exact storeByte_completes hwf addr (.register n)

/-- Settles O17: NOP completes, and its effect is an empty frame. -/
theorem nopChangesOnlyPc : Obligations.NopChangesOnlyPc := fun s =>
  have ⟨t, h⟩ := done_answers s
  ⟨t, h, (execNop_effect h).pc_eq, (execNop_effect h).frame⟩

/-- Settles O18: LDA loads a cell, LDI an immediate and MOV Rs, A a register. -/
theorem loadsIntoTheAccumulator : Obligations.LoadsIntoTheAccumulator := by
  rintro s i v (⟨addr, rfl, rfl⟩ | rfl | ⟨n, rfl, rfl⟩)
  · exact loadA_completes (.memory addr) s
  · exact loadA_completes (.immediate v) s
  · exact loadA_completes (.register n) s

/-- Settles O19: LDR loads a cell, LDRI an immediate, MOV Rs, Rd a register and MOV A, Rd the accumulator. -/
theorem loadsIntoARegister : Obligations.LoadsIntoARegister := by
  rintro s i n v (⟨addr, rfl, rfl⟩ | rfl | ⟨m, rfl, rfl⟩ | ⟨rfl, rfl⟩)
  · exact loadReg_completes n (.memory addr) s
  · exact loadReg_completes n (.immediate v) s
  · exact loadReg_completes n (.register m) s
  · exact loadReg_completes n .accumulator s

/-! ### Two transfers -/

/-- What neither of two changes writes, the two together keep. -/
theorem Frame.trans {w : Writes} {s t u : State} (hst : Frame w s t) (htu : Frame w t u) : Frame w s u where
  a h := (htu.a h).trans (hst.a h)
  c h := (htu.c h).trans (hst.c h)
  z h := (htu.z h).trans (hst.z h)
  sp h := (htu.sp h).trans (hst.sp h)
  halt h := (htu.halt h).trans (hst.halt h)
  fault h := (htu.fault h).trans (hst.fault h)
  out h := (htu.out h).trans (hst.out h)
  draws h := (htu.draws h).trans (hst.draws h)
  reg n h := (htu.reg n h).trans (hst.reg n h)
  byte addr h := (htu.byte addr h).trans (hst.byte addr h)
  image := htu.image.trans hst.image
  inValue := htu.inValue.trans hst.inValue
  params := htu.params.trans hst.params

/-- Settles O21: the register keeps `v` through the MOV, which copies it into A. -/
theorem ldriThenMovGivesTheValue : Obligations.LdriThenMovGivesTheValue := by
  intro s n v
  obtain ⟨t, hldri, hreg, -, hst⟩ := loadReg_completes n (.immediate v) s
  obtain ⟨u, hmov, ha, -, htu⟩ := loadA_completes (.register n) t
  have hrun : execAll [.ldri n v, .movRA n] s = .next u :=
    (execAll_cons (i := .ldri n v) hldri).trans (execAll_cons (i := .movRA n) hmov)
  have hst' : Frame { a := true, reg := some n } s t := { hst with a := nofun }
  have htu' : Frame { a := true, reg := some n } t u := { htu with reg := fun m _ => htu.reg m nofun }
  exact ⟨u, hrun, ha.trans hreg, (htu.reg n nofun).trans hreg, hst'.trans htu'⟩

end Sys2Proof.Machine

namespace Sys2Proof.Machine

/-!
# ALU (42_alu.md)

The results of rules R86 to R97 in exact numbers or bit by bit, then the three shapes of an ALU instruction: ADD,
SUB, and a result put into A. That each shape completes is said once; the statements name the results.
-/

/-! ### Sums and differences -/

/-- A sum that fits in a byte is not reduced, whatever `ADD_WRAP` is (R86). -/
theorem toNat_add8_of_le (p : AddWrap) {a b : Byte} (h : a.toNat + b.toNat ≤ 255) :
    (add8 p a b).toNat = a.toNat + b.toNat := by
  have hmod : (a.toNat + b.toNat) % 256 = a.toNat + b.toNat := Nat.mod_eq_of_lt (by omega)
  cases p with
  | mask => simp [add8, fullSum, hmod]
  | sub255 => simp [add8, fullSum, hmod, Nat.not_lt.2 h]

/-- Under MASK a larger sum loses 256. -/
theorem toNat_add8_mask {a b : Byte} (h : 255 < a.toNat + b.toNat) :
    (add8 .mask a b).toNat + 256 = a.toNat + b.toNat := by
  simp only [add8, fullSum, BitVec.toNat_ofNat]
  omega

/-- Under SUB255 a larger sum loses 255. -/
theorem toNat_add8_sub255 {a b : Byte} (h : 255 < a.toNat + b.toNat) :
    (add8 .sub255 a b).toNat + 255 = a.toNat + b.toNat := by
  simp only [add8, fullSum, gt_iff_lt, if_pos h, BitVec.toNat_ofNat]
  omega

/-- A difference that is not negative (R86). -/
theorem toNat_sub8_of_le (p : SubUnderflow) {a b : Byte} (drawn : Byte) (h : b.toNat ≤ a.toNat) :
    (sub8 p a b drawn).toNat + b.toNat = a.toNat := by
  simp only [sub8, if_pos h, BitVec.toNat_ofNat]
  omega

/-- Under WRAP a negative difference gains 256. -/
theorem toNat_sub8_wrap {a b : Byte} (drawn : Byte) (h : a.toNat < b.toNat) :
    (sub8 .wrap a b drawn).toNat + b.toNat = a.toNat + 256 := by
  simp only [sub8, if_neg (Nat.not_le.2 h), BitVec.toNat_ofNat]
  omega

/-- Under DRAW the drawn value stands for a negative difference. -/
theorem sub8_draw {a b : Byte} (drawn : Byte) (h : a.toNat < b.toNat) : sub8 .draw a b drawn = drawn :=
  if_neg (Nat.not_le.2 h)

/-- SUB draws only a negative difference under DRAW (R86). -/
theorem subDraws_iff {p : SubUnderflow} {a b : Byte} :
    subDraws p a b = true ↔ a.toNat < b.toNat ∧ p = .draw := by
  simp [subDraws]

/-! ### Complement, one more, one less, and rotations -/

/-- The complement of a byte is what it lacks to 255 (R93). -/
theorem toNat_not_add (a : Byte) : (~~~a).toNat + a.toNat = 255 := by
  rw [BitVec.toNat_not]
  omega

theorem toNat_inc8 (a : Byte) : (inc8 a).toNat = if a.toNat = 255 then 0 else a.toNat + 1 := by
  simp only [inc8, BitVec.toNat_ofNat]
  split <;> omega

theorem toNat_dec8 (a : Byte) : (dec8 a).toNat = if a.toNat = 0 then 255 else a.toNat - 1 := by
  simp only [dec8, BitVec.toNat_ofNat]
  split <;> omega

theorem dec8_inc8 (a : Byte) : dec8 (inc8 a) = a := by
  refine BitVec.eq_of_toNat_eq ?_
  rw [toNat_dec8, toNat_inc8]
  split <;> simp_all

/-- ROL is the library's rotation to the left (R96). -/
theorem rol8_eq_rotateLeft (a : Byte) : rol8 a = a.rotateLeft 1 := rfl

/-- ROR is the library's rotation to the right (R97): of the bits of A only bit 0 survives a shift by 7. -/
theorem ror8_eq_rotateRight (a : Byte) : ror8 a = a.rotateRight 1 := by
  have hbit : (a &&& 1) <<< 7 = a <<< 7 := by
    have hlow : (a &&& 1).toNat = a.toNat % 2 := Nat.and_one_is_mod _
    refine BitVec.eq_of_toNat_eq ?_
    rw [BitVec.toNat_shiftLeft, BitVec.toNat_shiftLeft, hlow, Nat.shiftLeft_eq, Nat.shiftLeft_eq]
    omega
  rw [ror8, hbit]
  rfl

/-- ROL moves bit k to bit k + 1, and bit 7 to bit 0. -/
theorem getLsbD_rol8 (a : Byte) {k : Nat} (hk : k < 8) : (rol8 a).getLsbD ((k + 1) % 8) = a.getLsbD k := by
  rw [rol8_eq_rotateLeft, BitVec.getLsbD_rotateLeft]
  obtain hlt | rfl : k < 7 ∨ k = 7 := by omega
  · have hnext : (k + 1) % 8 = k + 1 := Nat.mod_eq_of_lt (by omega)
    simp [hnext, show k + 1 < 8 by omega]
  · rfl

/-- ROR moves bit k + 1 to bit k, and bit 0 to bit 7. -/
theorem getLsbD_ror8 (a : Byte) {k : Nat} (hk : k < 8) : (ror8 a).getLsbD k = a.getLsbD ((k + 1) % 8) := by
  rw [ror8_eq_rotateRight, BitVec.getLsbD_rotateRight]
  obtain hlt | rfl : k < 7 ∨ k = 7 := by omega
  · have hnext : (k + 1) % 8 = k + 1 := Nat.mod_eq_of_lt (by omega)
    simp [hnext, hlt, Nat.add_comm]
  · rfl

theorem ror8_rol8 (a : Byte) : ror8 (rol8 a) = a :=
  BitVec.eq_of_getLsbD_eq fun _ hk => (getLsbD_ror8 _ hk).trans (getLsbD_rol8 a hk)

/-- Bit k of the result comes from bit k of A by way of bit k - 1, around the byte. -/
theorem rol8_ror8 (a : Byte) : rol8 (ror8 a) = a := by
  refine BitVec.eq_of_getLsbD_eq fun k hk => ?_
  have hprev : (k + 7) % 8 < 8 := Nat.mod_lt _ (by omega)
  have hround : ((k + 7) % 8 + 1) % 8 = k := by omega
  have hbit := (getLsbD_rol8 (ror8 a) hprev).trans (getLsbD_ror8 a hprev)
  rwa [hround] at hbit

/-! ### ADD and SUB -/

/-- ADD completes with the values of R86. -/
theorem addToA_completes (o : Operand) (s : State) :
    ∃ t, addToA o s = .next t ∧ t.a = add8 s.params.addWrap s.a (s.value o) ∧
      t.c = decide (255 < s.a.toNat + (s.value o).toNat) ∧ t.z = decide (t.a = 0) ∧ t.pc = s.pc + 1 ∧
      Frame { a := true, c := true, z := true } s t :=
  have ⟨t, h⟩ := done_answers _
  ⟨t, h, addToA_spec h⟩

/-- Settles O22: both ADDs are one operation at a register or a cell, and the sum fits or wraps. -/
theorem addResultCarryAndZero : Obligations.AddResultCarryAndZero := by
  intro s i v hi
  obtain ⟨o, hexec, rfl⟩ : ∃ o, exec i s = addToA o s ∧ s.value o = v := by
    obtain ⟨n, rfl, rfl⟩ | ⟨addr, rfl, rfl⟩ := hi
    · exact ⟨.register n, rfl, rfl⟩
    · exact ⟨.memory addr, rfl, rfl⟩
  obtain ⟨t, h, ha, hrest⟩ := addToA_completes o s
  refine ⟨t, hexec.trans h, fun hsum => ?_, fun hsum hp => ?_, fun hsum hp => ?_, hrest⟩
  · rw [ha, toNat_add8_of_le _ hsum]
  · rw [ha, hp, toNat_add8_mask hsum]
  · rw [ha, hp, toNat_add8_sub255 hsum]

/-- SUB completes with the value of R86, and counts a draw where it takes one (R89). -/
theorem execSub_completes (addr : Address) (s : State) :
    ∃ t, execSub addr s = .next t ∧
      t.a = sub8 s.params.subUnderflow s.a (s.byte addr) (Config.drawByte s.draws) ∧
      t.draws = (if subDraws s.params.subUnderflow s.a (s.byte addr) then s.draws + 1 else s.draws) ∧
      t.z = decide (t.a = 0) ∧ t.pc = s.pc + 1 ∧ Frame { a := true, z := true, draws := true } s t := by
  by_cases hdraw : subDraws s.params.subUnderflow s.a (s.byte addr) = true
  · have h : execSub addr s = done _ := if_pos hdraw
    have heff := execSub_effect h
    exact ⟨_, h, rfl, (if_pos hdraw).symm, heff.zero rfl, heff.pc_eq, heff.frame⟩
  · have h : execSub addr s = done _ := if_neg hdraw
    have heff := execSub_effect h
    exact ⟨_, h, rfl, (if_neg hdraw).symm, heff.zero rfl, heff.pc_eq, heff.frame⟩

/-- Settles O23: the difference is not negative, or wraps, or is drawn. -/
theorem subResultAndZero : Obligations.SubResultAndZero := by
  intro s addr
  obtain ⟨t, h, ha, hdraws, hrest⟩ := execSub_completes addr s
  refine ⟨t, h, fun hle => ⟨?_, ?_⟩, fun hlt hp => ⟨?_, ?_⟩, fun hlt hp => ⟨?_, ?_⟩, hrest⟩
  · rw [ha, toNat_sub8_of_le _ _ hle]
  · rw [hdraws, if_neg fun hdraw => (subDraws_iff.1 hdraw).1.not_ge hle]
  · rw [ha, hp, toNat_sub8_wrap _ hlt]
  · rw [hdraws, hp]
    exact if_neg (by simp [subDraws_iff])
  · rw [ha, hp, sub8_draw _ hlt]
  · rw [hdraws, if_pos (subDraws_iff.2 ⟨hlt, hp⟩)]

/-! ### A result put into A -/

/-- A result put into A completes, Z says whether the new A is 0, and C is kept (R20, R86). What `A = r` says of
the next state comes with it. -/
theorem resultToA_completes {r : Byte} {s : State} {P : State → Prop} (hP : ∀ t, t.a = r → P t) :
    ∃ t, resultToA r s = .next t ∧ P t ∧ t.z = decide (t.a = 0) ∧ t.pc = s.pc + 1 ∧
      Frame { a := true, z := true } s t := by
  obtain ⟨t, h⟩ := done_answers (s.setResult r)
  obtain ⟨ha, hz, hpc, hframe⟩ := resultToA_spec h
  exact ⟨t, h, hP t ha, ha ▸ hz, hpc, hframe⟩

/-- Settles O24: the words' operations are those of their bits. -/
theorem logicWorksBitByBit : Obligations.LogicWorksBitByBit := fun _ _ =>
  ⟨resultToA_completes fun _ ha _ => ha ▸ BitVec.getLsbD_and,
   resultToA_completes fun _ ha _ => ha ▸ BitVec.getLsbD_or,
   resultToA_completes fun _ ha _ => ha ▸ BitVec.getLsbD_xor⟩

/-- Settles O25: NOT, INC and DEC each put their number into A. -/
theorem unaryArithmeticResults : Obligations.UnaryArithmeticResults := fun s =>
  ⟨resultToA_completes fun _ ha => ha ▸ toNat_not_add s.a,
   resultToA_completes fun _ ha => ha ▸ toNat_inc8 s.a,
   resultToA_completes fun _ ha => ha ▸ toNat_dec8 s.a⟩

/-- Settles O26: ROL and ROR each put their rotation into A. -/
theorem rotatesMoveEveryBitByOne : Obligations.RotatesMoveEveryBitByOne := fun s =>
  ⟨resultToA_completes fun _ ha _ hk => ha ▸ getLsbD_rol8 s.a hk,
   resultToA_completes fun _ ha _ hk => ha ▸ getLsbD_ror8 s.a hk⟩

/-! ### Round trips -/

/-- Two operations on A, the second of which undoes the first, give A back and leave its Z. -/
theorem execAll_resultToA_roundTrip {i j : Instr} {f g : Byte → Byte}
    (hi : ∀ s, exec i s = resultToA (f s.a) s) (hj : ∀ s, exec j s = resultToA (g s.a) s)
    (hgf : ∀ a, g (f a) = a) (s : State) :
    ∃ t, execAll [i, j] s = .next t ∧ t.a = s.a ∧ t.z = decide (s.a = 0) ∧ Frame { z := true } s t := by
  obtain ⟨t, ht, hta, -, -, hst⟩ := resultToA_completes (r := f s.a) (s := s) fun _ ha => ha
  obtain ⟨u, hu, hua, huz, -, htu⟩ := resultToA_completes (r := g t.a) (s := t) fun _ ha => ha
  have hback : u.a = s.a := by rw [hua, hta, hgf]
  have hrun : execAll [i, j] s = .next u :=
    (execAll_cons ((hi s).trans ht)).trans (execAll_cons ((hj t).trans hu))
  exact ⟨u, hrun, hback, hback ▸ huz, { hst.trans htu with a := fun _ => hback }⟩

/-- Settles O27: DEC undoes INC. -/
theorem incThenDecIsARoundTrip : Obligations.IncThenDecIsARoundTrip :=
  execAll_resultToA_roundTrip (f := inc8) (g := dec8) (fun _ => rfl) (fun _ => rfl) dec8_inc8

/-- Settles O28: each rotation undoes the other. -/
theorem rotatesAreARoundTrip : Obligations.RotatesAreARoundTrip := fun s =>
  ⟨execAll_resultToA_roundTrip (f := rol8) (g := ror8) (fun _ => rfl) (fun _ => rfl) ror8_rol8 s,
   execAll_resultToA_roundTrip (f := ror8) (g := rol8) (fun _ => rfl) (fun _ => rfl) rol8_ror8 s⟩

end Sys2Proof.Machine

namespace Sys2Proof.Machine

/-!
# Control transfer (43_control.md)

Every jump is the shared operation `jumpIf`, always taken, taken on a flag or taken on a flag's negation. That the
operation completes, with its PC and an empty frame, is said once; the statement names the flags.
-/

/-- A jump completes, taken or not (R98). -/
theorem jumpIf_completes (taken : Bool) (target : Index) (s : State) :
    ∃ t, jumpIf taken target s = .next t ∧ t.pc = (if taken then target else s.pc + 1) ∧ Frame {} s t :=
  have ⟨t, h⟩ := jumpIf_answers taken target s
  ⟨t, h, jumpIf_spec h⟩

/-- A jump on a flag that is clear falls through where the flag is set (R102, R104). -/
theorem jumpIf_not_completes (flag : Bool) (target : Index) (s : State) :
    ∃ t, jumpIf (!flag) target s = .next t ∧ t.pc = (if flag then s.pc + 1 else target) ∧ Frame {} s t := by
  cases flag with
  | false => exact jumpIf_completes true target s
  | true => exact jumpIf_completes false target s

/-- Settles O31: JMP is always taken, JZ and JC where their flag is set, JNZ and JNC where it is clear. -/
theorem jumpsGoToTheirTarget : Obligations.JumpsGoToTheirTarget := fun s target =>
  ⟨jumpIf_completes true target s,
   jumpIf_completes s.z target s,
   jumpIf_not_completes s.z target s,
   jumpIf_completes s.c target s,
   jumpIf_not_completes s.c target s⟩

end Sys2Proof.Machine

namespace Sys2Proof.Machine

/-!
# Stack, I/O, halt and print (44_stack_io_system.md)

PUSH, POP and PRINT raise their fault or complete; that a fault is taken in place (`raise_completes`) and that an
event is appended (`emit_completes`) is said once. Of the output channel, an instruction emits at most one event
(`exec_emits`), and replacing the events before it replaces nothing else (`exec_withOut`).
-/

/-! ### Shared ends -/

/-- A fault that is raised is taken in a next state, with its code and nothing else changed (R115). -/
theorem raise_completes (k : FaultCause) (s : State) :
    ∃ t, raise k s = .next t ∧ t.halt = true ∧ t.fault = causeCode k ∧ t.pc = s.pc ∧ Frame .ofFault s t :=
  have ⟨hframe, hpc⟩ := takeFault_frame k s
  ⟨takeFault k s, rfl, rfl, rfl, hpc, hframe⟩

/-- An instruction that emits an event completes, and appends it (R105). -/
theorem emit_completes (e : Event) (s : State) :
    ∃ t, done (s.emit e) = .next t ∧ t.out = s.out ++ [e] ∧ t.pc = s.pc + 1 ∧ Frame { out := true } s t :=
  have heff := emit_effect (s := s) (e := e) rfl
  ⟨(s.emit e).advance, rfl, rfl, heff.pc_eq, heff.frame⟩

/-! ### The stack -/

/-- Settles O32: PUSH above SP = 0 is a byte write and a move of SP. -/
theorem pushStoresAtTheOldStackPointer : Obligations.PushStoresAtTheOldStackPointer := by
  intro s hwf hsp
  have h : execPush s = done ((s.setByte s.pushAddress s.a).setSp (s.sp - 1)) := if_neg hsp
  have heff := execPush_effect h
  simp only [writesOf, pcAfter, if_neg hsp] at heff
  have hstored := (s.byte_setByte hwf s.pushAddress s.pushAddress s.a).trans (if_pos rfl)
  have hdecremented : (s.sp - 1).toNat + 1 = s.sp.toNat := by bv_omega
  exact ⟨_, h, hstored, fun b hb => heff.frame.byte b fun e => hb (Option.some.inj e).symm, rfl, hdecremented,
    heff.pc_eq, heff.frame⟩

/-- Settles O33: POP below SP = 511 is a move of SP and a load from the new SP. -/
theorem popLoadsFromTheNewStackPointer : Obligations.PopLoadsFromTheNewStackPointer := by
  intro s hsp
  have h : execPop s = done ((s.setSp s.popAddress).setA (s.byte s.popAddress)) := if_neg hsp
  have heff := execPop_effect h
  simp only [writesOf, pcAfter, if_neg hsp] at heff
  have hincremented : (s.sp + 1).toNat = s.sp.toNat + 1 := by bv_omega
  exact ⟨_, h, hincremented, rfl, heff.pc_eq, heff.frame⟩

/-- Settles O34: at its end of the stack each instruction is the raise of its fault. -/
theorem stackEndsFault : Obligations.StackEndsFault := by
  constructor
  · intro s hsp
    have h : exec .push s = raise .stackOverflow s := if_pos hsp
    exact h ▸ raise_completes .stackOverflow s
  · intro s hsp
    have h : exec .pop s = raise .stackUnderflow s := if_pos hsp
    exact h ▸ raise_completes .stackUnderflow s

/-- Settles O35: PUSH leaves SP below 511, so POP completes, at the cell PUSH wrote. -/
theorem pushThenPopIsARoundTrip : Obligations.PushThenPopIsARoundTrip := by
  intro s hwf hsp
  obtain ⟨t, hpush, hstored, -, haddr, htsp, -, hst⟩ := pushStoresAtTheOldStackPointer s hwf hsp
  rw [haddr] at hstored hst
  have hbelow : t.sp ≠ 511 := by bv_omega
  obtain ⟨u, hpop, husp, hloaded, -, htu⟩ := popLoadsFromTheNewStackPointer t hbelow
  have hsp' : u.sp = s.sp := BitVec.eq_of_toNat_eq (husp.trans htsp)
  have ha : u.a = s.a := by rw [hloaded, hsp', hstored]
  have hrun : execAll [.push, .pop] s = .next u := (execAll_cons hpush).trans (execAll_cons hpop)
  have hst' : Frame { a := true, sp := true, cell := some s.sp } s t := { hst with a := nofun }
  have htu' : Frame { a := true, sp := true, cell := some s.sp } t u :=
    { htu with byte := fun b _ => htu.byte b nofun }
  exact ⟨u, hrun, ha, hsp', (htu.byte s.sp nofun).trans hstored,
    { hst'.trans htu' with a := fun _ => ha, sp := fun _ => hsp' }⟩

/-! ### Input and halt -/

/-- Settles O37: IN puts the input into A as an ALU operation puts its result. -/
theorem inReadsTheInputValue : Obligations.InReadsTheInputValue := fun s =>
  have ⟨t, h⟩ := done_answers (s.setResult s.inValue)
  ⟨t, h, resultToA_spec (r := s.inValue) h⟩

/-- Settles O41: HALT stops the core whatever PC is (R71). -/
theorem hltHaltsInPlace : Obligations.HltHaltsInPlace := by
  intro s
  have heff := execHlt_effect (s := s) rfl
  have hstopped : s.setHalt.stopped = true := (State.stopped_iff _).2 (.inl rfl)
  exact ⟨s.setHalt, rfl, rfl, heff.pc_eq, heff.frame, hstopped, step_of_stopped hstopped⟩

/-! ### Output and print -/

/-- The one event appended to the channel is the one emitted (R105). -/
theorem emitted_of_append {s t : State} {e : Event} (h : t.out = s.out ++ [e]) : emitted s t = some e := by
  rw [emitted, h, List.getElem?_concat_length]

/-- An OUT event shows on the output port alone (R9). -/
theorem ports_of_out {s t : State} {v : Byte} (h : t.out = s.out ++ [.out v]) :
    outPort s t = some v ∧ printPort s t = none := by
  simp [outPort, printPort, emitted_of_append h]

/-- A PRINT event shows on the print port alone (R9). -/
theorem ports_of_print {s t : State} {template : Index} {snap : Arch} (h : t.out = s.out ++ [.print template snap]) :
    printPort s t = some template ∧ outPort s t = none := by
  simp [outPort, printPort, emitted_of_append h]

/-- Settles O38: OUT emits A and OUT Rn a register. -/
theorem outAppendsOneEvent : Obligations.OutAppendsOneEvent := by
  intro s i v hi
  have hexec : exec i s = done (s.emit (.out v)) := by
    obtain ⟨rfl, rfl⟩ | ⟨n, rfl, rfl⟩ := hi <;> rfl
  obtain ⟨t, h, hout, hpc, hframe⟩ := emit_completes (.out v) s
  obtain ⟨houtPort, hprintPort⟩ := ports_of_out hout
  exact ⟨t, hexec.trans h, hout, houtPort, hprintPort, hpc, hframe⟩

/-- The default check reports no fault (R112). -/
theorem printFaults_never {s : State} (h : s.params.printCheck = .never) (template : Index) :
    printFaults template s = false := by
  rw [printFaults, h]

/-- A check that the host supplies decides (R112). -/
theorem printFaults_host {s : State} (h : s.params.printCheck = .host) (template : Index) :
    printFaults template s = Config.printCheck s.image.templates[template.toNat]? s.toArch := by
  rw [printFaults, h]

/-- PRINT emits its event where its check reports no fault (R112). -/
theorem exec_print_of_not_printFaults {template : Index} {s : State} (h : ¬ printFaults template s = true) :
    exec (.print template) s = done (s.emit (.print template s.toArch)) := if_neg h

/-- PRINT raises PRINT_FAULT where its check reports one (R112). -/
theorem exec_print_of_printFaults {template : Index} {s : State} (h : printFaults template s = true) :
    exec (.print template) s = raise .printFault s := if_pos h

/-- Settles O39: the default check never reports a fault. -/
theorem printAppendsASnapshot : Obligations.PrintAppendsASnapshot := by
  intro s template hcheck
  have hexec := exec_print_of_not_printFaults (Bool.eq_false_iff.1 (printFaults_never hcheck template))
  obtain ⟨t, h, hout, hpc, hframe⟩ := emit_completes (.print template s.toArch) s
  obtain ⟨hprintPort, houtPort⟩ := ports_of_print hout
  exact ⟨t, hexec.trans h, hout, hprintPort, houtPort, hpc, hframe⟩

/-- Settles O40: `printFaults` is the host's predicate. -/
theorem printCheckDecidesPrintFault : Obligations.PrintCheckDecidesPrintFault := by
  intro s template hcheck
  rw [← printFaults_host hcheck]
  by_cases hfaults : printFaults template s = true
  · simp only [if_pos hfaults]
    exact exec_print_of_printFaults hfaults ▸ raise_completes .printFault s
  · simp only [if_neg hfaults]
    exact exec_print_of_not_printFaults hfaults ▸ emit_completes (.print template s.toArch) s

/-! ### The output channel is only appended to -/

/-- An instruction that may write the channel emits one event and only advances PC beside it (R105). -/
theorem exec_emits {i : Instr} {s t : State} (h : exec i s = .next t) (hout : (writesOf i s).out = true) :
    ∃ e, t = (s.emit e).advance := by
  cases i with
  | outA | outR n => exact ⟨_, (done_next.1 h).symm⟩
  | print template =>
    by_cases hfaults : printFaults template s = true
    · simp [writesOf, hfaults, Writes.ofFault] at hout
    · exact ⟨_, (done_next.1 ((exec_print_of_not_printFaults hfaults).symm.trans h)).symm⟩
  | push | pop =>
    simp only [writesOf] at hout
    split at hout <;> cases hout
  | _ => cases hout

/-- What an instruction does to the channel: nothing, or one event appended. -/
theorem exec_out {i : Instr} {s t : State} (h : exec i s = .next t) :
    t.out = s.out ∨ ∃ e, t.out = s.out ++ [e] := by
  cases hout : (writesOf i s).out with
  | false => exact .inl ((exec_effect h).frame.out hout)
  | true =>
    obtain ⟨e, rfl⟩ := exec_emits h hout
    exact .inr ⟨e, rfl⟩

/-- Settles O43: an instruction that changes FAULT has entered a fault, which keeps the channel (R115). -/
theorem atMostOneEventPerStep : Obligations.AtMostOneEventPerStep := by
  intro s t h
  obtain ⟨-, rfl⟩ | ⟨-, w, i, -, -, hexec⟩ | ⟨-, w, e, -, -, rfl⟩ := step_cases h
  · exact ⟨.inl rfl, fun _ => rfl⟩
  · refine ⟨exec_out hexec, fun hne => ?_⟩
    obtain ⟨k, rfl⟩ := (exec_effect hexec).fault.resolve_left hne
    rfl
  · exact ⟨.inl rfl, fun _ => rfl⟩

/-! ### The output channel is never read -/

/-- The state with another event stream. -/
def State.withOut (s : State) (o : List Event) : State := { s with out := o }

/-- The state `t` that was reached from `s`, with `o` in the place of the events that stood in `s`. -/
def State.withOutBefore (t s : State) (o : List Event) : State := t.withOut (o ++ t.out.drop s.out.length)

section
variable {s t u : State} (o : List Event)

/-- Where no event was added, the events before are all there are. -/
theorem State.withOutBefore_of_out_eq (h : t.out = s.out) : t.withOutBefore s o = t.withOut o := by
  simp [State.withOutBefore, h]

theorem done_withOut (hu : u.out = s.out) (h : done u = .next t) :
    done (u.withOut o) = .next (t.withOutBefore s o) := by
  obtain rfl := done_next.1 h
  rw [State.withOutBefore_of_out_eq o (t := u.advance) hu]
  rfl

theorem doneUpdated_withOut (hu : u.out = s.out) (h : doneUpdated u = .next t) :
    doneUpdated (u.withOut o) = .next (t.withOutBefore s o) := by
  obtain rfl := doneUpdated_next.1 h
  rw [State.withOutBefore_of_out_eq o hu]
  rfl

theorem raise_withOut {k : FaultCause} (h : raise k s = .next t) :
    raise k (s.withOut o) = .next (t.withOutBefore s o) := by
  obtain rfl := raise_next.1 h
  rw [State.withOutBefore_of_out_eq o (takeFault_out s k)]
  rfl

/-- An event is appended to whatever stream stands before it. -/
theorem emit_withOut {e : Event} (h : done (s.emit e) = .next t) :
    done ((s.withOut o).emit e) = .next (t.withOutBefore s o) := by
  obtain rfl := done_next.1 h
  have hstate : (s.emit e).advance.withOutBefore s o = (s.emit e).advance.withOut (o ++ [e]) := by
    simp [State.withOutBefore]
  rw [hstate]
  rfl

/-- A condition that does not read the channel chooses the same branch. -/
theorem ite_next {p : Prop} [Decidable p] {x y x' y' : Result} {t' : State} (hx : x = .next t → x' = .next t')
    (hy : y = .next t → y' = .next t') (h : (if p then x else y) = .next t) :
    (if p then x' else y') = .next t' := by
  split
  · next hp => exact hx ((if_pos hp).symm.trans h)
  · next hp => exact hy ((if_neg hp).symm.trans h)

theorem jumpIf_withOut {taken : Bool} {target : Index} (h : jumpIf taken target s = .next t) :
    jumpIf taken target (s.withOut o) = .next (t.withOutBefore s o) :=
  ite_next (doneUpdated_withOut o rfl) (done_withOut o rfl) h

theorem execFault_withOut {cause : BitVec 4} (h : execFault cause s = .next t) :
    execFault cause (s.withOut o) = .next (t.withOutBefore s o) := by
  unfold execFault at h ⊢
  split at h
  · exact raise_withOut o h
  · cases h

end

/-- No operand and no condition of an instruction reads the channel (R105), so each instruction ends in the same
shared end over any stream. -/
theorem exec_withOut {i : Instr} {s t : State} (o : List Event) (h : exec i s = .next t) :
    exec i (s.withOut o) = .next (t.withOutBefore s o) := by
  cases i with
  | jmp target => exact jumpIf_withOut o (taken := true) h
  | jz target | jnz target | jc target | jnc target => exact jumpIf_withOut o h
  | hlt => exact doneUpdated_withOut o (u := s.setHalt) rfl h
  | sub addr => exact ite_next (done_withOut o rfl) (done_withOut o rfl) h
  | push | pop => exact ite_next (raise_withOut o) (done_withOut o rfl) h
  | outA | outR n => exact emit_withOut o h
  | print template => exact ite_next (raise_withOut o) (emit_withOut o) h
  | fault cause => exact execFault_withOut o h
  | _ => exact done_withOut o rfl h

/-- Settles O44: `exec_withOut` spelled out. -/
theorem outputStreamIsNeverRead : Obligations.OutputStreamIsNeverRead :=
  fun _ _ _ o h => exec_withOut o h

end Sys2Proof.Machine

namespace Sys2Proof.Machine

/-!
# Faults (60_exceptions.md)

A fault stops the core in place (rule R115): `raise_completes` says it of the raise, and `exec_effect` that an
instruction that changes FAULT took one. A FAULT record holds the code of the cause it raises (rule R113). A stopped
core stays as it is through any number of steps (`run_of_stopped`), and a reset makes it run again (rule R120).
-/

/-! ### Fault entry -/

/-- Settles O14: an instruction that changes FAULT has ended in `takeFault`, and a cause's code is 1 to 9. -/
theorem faultsArePrecise : Obligations.FaultsArePrecise := by
  refine ⟨raise_completes, fun i s t h hne => ?_⟩
  obtain ⟨k, rfl⟩ := (exec_effect h).fault.resolve_left hne
  obtain ⟨hlo, hhi⟩ := causeCode_range k
  obtain ⟨hframe, hpc⟩ := takeFault_frame k s
  exact ⟨takeFault_halt s k, hlo, hhi, hpc, hframe⟩

/-! ### The FAULT record -/

/-- The record of FAULT has all ones in its tag and its cause in the low bits (R64, R113). -/
theorem encode_fault (c : BitVec 4) : encode (.fault c) = 0xFC000000 ||| c.setWidth 32 := by
  revert c; decide

/-- Settles O15: a cause in 1 to 9 is the code of one, and executing its record is the raise of it. -/
theorem faultRecordRaisesItsCause : Obligations.FaultRecordRaisesItsCause := by
  constructor
  · intro c
    rw [← encode_fault]
    exact decodeOfEncodeIsTheInstruction (.fault c)
  · intro c s hlo hhi
    obtain ⟨k, hk⟩ := Instr.wf_fault_iff.1 (show (Instr.fault c).wf = true by simp [Instr.wf, hlo, hhi])
    obtain rfl := causeCode_of_causeOfCode hk
    rw [exec_fault_causeCode]
    exact raise_completes k s

/-! ### Only reset leaves a stopped core -/

/-- However many steps are requested, a stopped core answers each with the same state (R9, R71). -/
theorem run_of_stopped {s : State} (h : s.stopped = true) (n : Nat) : Sys2Proof.core.run n s = .next s := by
  induction n with
  | zero => rfl
  | succ n ih => rw [run_succ (step_of_stopped h), ih]

/-- After a reset the core runs where it has a program (R130). -/
theorem State.applyReset_running {s : State} (h : s.image.records ≠ []) : s.applyReset.stopped = false := by
  have hlen : s.applyReset.pc.toNat < s.applyReset.progLen := List.length_pos_of_ne_nil h
  exact (State.running_iff _).2 ⟨rfl, hlen⟩

/-- Settles O9: a step request leaves a stopped core as it is, and reset does not ask whether it is stopped. -/
theorem onlyResetLeavesAStoppedCore : Obligations.OnlyResetLeavesAStoppedCore := by
  intro s hs
  have hstopped : s.stopped = true := s.stopped_iff.2 hs
  exact ⟨run_of_stopped hstopped, step_of_stopped hstopped, s.applyReset, rfl, rfl, rfl, State.applyReset_running⟩

end Sys2Proof.Machine

namespace Sys2Proof.Machine

/-!
# Reset and hazards (70_reset_and_hazards.md)

The bound on the stack (rule R137) is a count: every PUSH takes one from the free bytes and every POP one from the
bytes on the stack, each until its count is 0. What such a repetition does is said once (`execAll_replicate`). Reset
writes the table of 10_state.md rule R29 and keeps what the host supplies, which no step writes either.
-/

/-! ### Instructions executed one after the other -/

/-- A composition of meanings goes on from where its first part ended. -/
theorem execAll_append {is js : List Instr} {s t : State} (h : execAll is s = .next t) :
    execAll (is ++ js) s = execAll js t := by
  induction is generalizing s with
  | nil =>
    cases h
    rfl
  | cons i is ih =>
    cases hi : exec i s with
    | next u =>
      rw [execAll_cons hi] at h
      exact (execAll_cons hi).trans (ih h)
    | fault r => cases r
    | refused r => simp [execAll, hi] at h

/-- One more of a repeated instruction executes where the others ended. -/
theorem execAll_replicate_succ {i : Instr} {k : Nat} {s t u : State}
    (h : execAll (List.replicate k i) s = .next t) (hi : exec i t = .next u) :
    execAll (List.replicate (k + 1) i) s = .next u := by
  rw [List.replicate_succ', execAll_append h]
  exact execAll_cons hi

/-- An instruction that takes one from a count completes as often as the count says, and enters no fault. -/
theorem execAll_replicate {i : Instr} {count : State → Nat}
    (hi : ∀ s, 0 < count s → ∃ t, exec i s = .next t ∧ count t + 1 = count s ∧ t.halt = s.halt ∧ t.fault = s.fault)
    (s : State) {k : Nat} (hk : k ≤ count s) :
    ∃ t, execAll (List.replicate k i) s = .next t ∧ count t + k = count s ∧ t.halt = s.halt ∧ t.fault = s.fault := by
  induction k with
  | zero => exact ⟨s, rfl, rfl, rfl, rfl⟩
  | succ k ih =>
    obtain ⟨t, hrun, hcount, hhalt, hfault⟩ := ih (by omega)
    obtain ⟨u, hexec, hcount', hhalt', hfault'⟩ := hi t (by omega)
    exact ⟨u, execAll_replicate_succ hrun hexec, by omega, hhalt'.trans hhalt, hfault'.trans hfault⟩

/-! ### How many bytes the stack holds -/

/-- The bytes a program can still push: the stack grows down to SP = 0 (R23, R106). -/
def State.freeBytes (s : State) : Nat := s.sp.toNat

/-- The bytes a program can pop: the stack is empty at SP = 511 (R23, R107). -/
def State.heldBytes (s : State) : Nat := 511 - s.sp.toNat

theorem State.freeBytes_add_heldBytes (s : State) : s.freeBytes + s.heldBytes = 511 := by
  simp only [freeBytes, heldBytes]
  omega

theorem State.freeBytes_pos {s : State} : 0 < s.freeBytes ↔ s.sp ≠ 0 := by
  simp only [freeBytes]
  bv_omega

theorem State.heldBytes_pos {s : State} : 0 < s.heldBytes ↔ s.sp ≠ 511 := by
  simp only [heldBytes]
  bv_omega

/-- PUSH completes while a byte is free, and takes it (R106). -/
theorem push_takes_freeByte (s : State) (h : 0 < s.freeBytes) :
    ∃ t, exec .push s = .next t ∧ t.freeBytes + 1 = s.freeBytes ∧ t.halt = s.halt ∧ t.fault = s.fault := by
  have hsp : s.sp ≠ 0 := State.freeBytes_pos.1 h
  have htaken : (s.sp - 1).toNat + 1 = s.sp.toNat := by bv_omega
  exact ⟨_, if_neg hsp, htaken, rfl, rfl⟩

/-- POP completes while a byte is held, and takes it (R107). -/
theorem pop_takes_heldByte (s : State) (h : 0 < s.heldBytes) :
    ∃ t, exec .pop s = .next t ∧ t.heldBytes + 1 = s.heldBytes ∧ t.halt = s.halt ∧ t.fault = s.fault := by
  obtain ⟨t, hpop, hsp, -, -, hframe⟩ := popLoadsFromTheNewStackPointer s (State.heldBytes_pos.1 h)
  have htaken : t.heldBytes + 1 = s.heldBytes := by
    simp only [State.heldBytes]
    omega
  exact ⟨t, hpop, htaken, hframe.halt rfl, hframe.fault rfl⟩

/-- As many pops as pushes bring SP back and enter no fault. -/
theorem execAll_pushes_pops {s : State} {k : Nat} (hk : k ≤ s.freeBytes) :
    ∃ t, execAll (List.replicate k .push ++ List.replicate k .pop) s = .next t ∧
      t.sp = s.sp ∧ t.halt = s.halt ∧ t.fault = s.fault := by
  obtain ⟨t, hpush, hfree, hhalt, hfault⟩ := execAll_replicate push_takes_freeByte s hk
  have hs := s.freeBytes_add_heldBytes
  have ht := t.freeBytes_add_heldBytes
  obtain ⟨u, hpop, hheld, hhalt', hfault'⟩ := execAll_replicate pop_takes_heldByte t (k := k) (by omega)
  have hu := u.freeBytes_add_heldBytes
  have hsp : u.freeBytes = s.freeBytes := by omega
  exact ⟨u, (execAll_append hpush).trans hpop, BitVec.eq_of_toNat_eq hsp, hhalt'.trans hhalt, hfault'.trans hfault⟩

/-- Settles O36: SP = 511 is 511 free bytes and none held. The count runs out after 511 pushes, and after as many
pops as pushes; at its end each instruction raises its fault. -/
theorem stackHoldsAtMost511Bytes : Obligations.StackHoldsAtMost511Bytes := by
  intro s hsp
  have hfree : s.freeBytes = 511 := congrArg BitVec.toNat hsp
  refine ⟨fun k hk => hfree ▸ execAll_replicate push_takes_freeByte s (hfree ▸ hk), ?_, fun k hk => ⟨?_, ?_⟩⟩
  · obtain ⟨t, hrun, hcount, -, -⟩ := execAll_replicate push_takes_freeByte s (k := 511) hfree.ge
    have hfull : t.sp = 0 := BitVec.eq_of_toNat_eq (show t.freeBytes = 0 by omega)
    obtain ⟨u, hpush, hhalt, hfault, -, hframe⟩ := stackEndsFault.1 t hfull
    exact ⟨u, execAll_replicate_succ hrun hpush, (hframe.sp rfl).trans hfull, hhalt, hfault⟩
  · exact hsp ▸ execAll_pushes_pops (hfree ▸ hk)
  · obtain ⟨t, hrun, hback, -, -⟩ := execAll_pushes_pops (s := s) (k := k) (hfree ▸ hk)
    have hempty : t.sp = 511 := hback.trans hsp
    obtain ⟨u, hpop, hhalt, hfault, -, hframe⟩ := stackEndsFault.2 t hempty
    have hrun' : execAll (List.replicate k .push ++ List.replicate (k + 1) .pop) s = .next u := by
      rw [List.replicate_succ', ← List.append_assoc, execAll_append hrun]
      exact execAll_cons hpop
    exact ⟨u, hrun', (hframe.sp rfl).trans hempty, hhalt, hfault⟩

/-! ### What the host supplies -/

/-- No step writes the image, `IN_VALUE` or the parameters: the frame of every instruction keeps them, and so does
fault entry (R131). -/
theorem step_keeps_hostSupplied {s t : State} (h : step s = .next t) :
    t.image = s.image ∧ t.inValue = s.inValue ∧ t.params = s.params := by
  obtain ⟨-, rfl⟩ | ⟨-, _, _, -, -, hexec⟩ | ⟨-, _, _, -, -, rfl⟩ := step_cases h
  · exact ⟨rfl, rfl, rfl⟩
  · have hframe := (exec_effect hexec).frame
    exact ⟨hframe.image, hframe.inValue, hframe.params⟩
  · exact ⟨takeFault_image s _, takeFault_inValue s _, takeFault_params s _⟩

/-- Settles O12: reset copies what the host supplies, and no step writes it. -/
theorem hostSuppliedStateIsConstant : Obligations.HostSuppliedStateIsConstant :=
  ⟨fun _ => ⟨rfl, rfl, rfl⟩, fun _ _ => step_keeps_hostSupplied⟩

/-! ### The reset values -/

/-- Under `RESET_REGS = ZERO` the architectural state after reset is the table of R29 with zeros, whatever the draw
counter says. -/
theorem resetArch_of_zero {p : Params} (h : p.resetRegs = .zero) (k : Nat) :
    resetArch p k = { a := 0, regs := Vector.replicate 16 0, c := false, z := false, pc := 0, sp := 511,
                      halt := false, fault := 0, mem := [] } := by
  simp [resetArch, h]

/-- Under `RESET_REGS = ZERO` every register is 0 after reset (R14, R29). -/
theorem State.applyReset_reg_of_zero {s : State} (h : s.params.resetRegs = .zero) (n : RegIndex) :
    s.applyReset.reg n = 0 := by
  simp [State.reg, State.applyReset, resetArch_of_zero h]

/-- Settles O11: all but A, R, C and Z are the same under both settings of `RESET_REGS`; these four are 0 under ZERO. -/
theorem resetPutsEveryStateToItsResetValue : Obligations.ResetPutsEveryStateToItsResetValue := by
  intro s
  refine ⟨rfl, rfl, rfl, rfl, fun addr => Memory.read_nil addr.toNat, rfl, fun hzero => ?_⟩
  have harch : s.applyReset.toArch = _ := resetArch_of_zero hzero s.draws
  exact ⟨congrArg Arch.a harch, State.applyReset_reg_of_zero hzero, congrArg Arch.c harch, congrArg Arch.z harch⟩

/-- Settles O13: reset reads the earlier run only in the draw counter, and under ZERO nothing is drawn. -/
theorem resetForgetsTheEarlierRun : Obligations.ResetForgetsTheEarlierRun := by
  intro s t hparams himage hinput hzero
  rw [hparams] at hzero
  have harch : resetArch t.params s.draws = resetArch t.params t.draws := by
    rw [resetArch_of_zero hzero, resetArch_of_zero hzero]
  simp [State.applyReset, harch, himage, hinput, hparams]

end Sys2Proof.Machine
